-- ==== Sys2Proof/Word.lean ====
section
/-! DEFINITION. The word types and the field types of slot words (00_scope.md R5, R6; 01_bundles.md R13, R25; 02_encodings.md Table 2-3). -/

namespace Sys2Proof

abbrev Byte := BitVec 8
abbrev W32 := BitVec 32
abbrev W64 := BitVec 64
/-- A vector register: 256 byte lanes, lane 0 in bits [7:0]. -/
abbrev Vec := BitVec 2048
/-- A predicate: one bit per byte lane. -/
abbrev Pred := BitVec 256

/-- Guard fields GINV and GPRED of a slot word (01_bundles.md R25, R27). -/
structure Guard where
  inv : Bool
  p : Fin 8
  deriving DecidableEq, Repr

/-- Type codes T, TD, TS 0 to 12 (02_encodings.md Table 2-3); `nf f` is a narrow float under descriptor register f. -/
inductive Ty where
  | i8 | i16 | i32 | u8 | u16 | u32 | bf16 | f32
  | nf (f : Fin 4)
  | e5m3
  deriving DecidableEq, Repr

/-- Rounding modes of the RM field (02_encodings.md Table 2-3). -/
inductive Rm where
  | rne | rtz | rs
  deriving DecidableEq, Repr

/-- Scopes of the SC field: core, cluster, die, package, system (02_encodings.md Table 2-3). -/
inductive Scope where
  | c | k | d | p | s
  deriving DecidableEq, Repr

/-- Element widths 8, 16 and 32 bits of the ES field and of SEXT and ZEXT (02_encodings.md Tables 2-3, 2-5). -/
inductive Width where
  | e8 | e16 | e32
  deriving DecidableEq, Repr

/-- Engine codes of BTOK and QFENCE (04_control_scalar.md R102). -/
inductive Eng where
  | v0 | v1 | m | y0 | y1
  deriving DecidableEq, Repr

/-- What an ECC error of an L2 slice hit (10_cluster.md R299, R301). -/
inductive EccError where
  | corrected
  | cleanLine (line : Nat)
  | dirtyLine (line : Nat)
  | tagWay (way : Fin 16) (lines : List Nat)
  | setState (set : Fin 32)
  deriving DecidableEq, Repr

/-- A link whose replay or repair is exhausted (14_package.md R365): between two dies, or from a die to the Hub. -/
inductive Link where
  | dies (a b : Fin 4)
  | hub (d : Fin 4)
  deriving DecidableEq, Repr

/-- A contribution on its way (15_fabric.md R409, R413): one held in this package's switch goes on to its home, by its place; one from another
package, with its source, fabric line address, count, bytes present and data, enters the switch, or reaches its home here. -/
inductive Merge where
  | held (n : Nat)
  | entered (src line count : Nat) (en : BitVec 64) (data : BitVec 512)
  | arrived (src line count : Nat) (en : BitVec 64) (data : BitVec 512)
  deriving DecidableEq, Repr

/-- What another package asks of this one's memory from an address on (15_fabric.md R408, R415): bytes to read, bytes to write, or a batch
of YATOM records, each with its distance from that address, its operation, whether it has 8 bytes, and its operand. -/
inductive Inbound where
  | read (n : Nat)
  | write (data : List (BitVec 8))
  | atomics (l : List (Nat × Nat × Bool × BitVec 64))
  deriving DecidableEq, Repr

/-- Who makes an access to a register or, from the debug port, to memory (12_die.md R336, R337; 14_package.md R387): a Taproot core in
supervisor mode, the security processor, the debug port reading or writing, each as a master of a die. -/
inductive Writer where
  | taproot (d t : Fin 4)
  | security (d : Fin 4)
  | port (d : Fin 4) (write : Bool)
  deriving DecidableEq, Repr

/-- Who accesses which physical address. -/
structure MasterAccess where
  who : Writer
  pa : Nat
  deriving DecidableEq, Repr

/-- A fuse field that only ever rises (14_package.md R384). -/
inductive Fuse where
  | revoke
  | rollback (k : Fin 4)
  deriving DecidableEq, Repr

/-- A request to raise a fuse field, and whether the running stage-1 firmware's key slot has signed it (14_package.md R384). -/
structure FuseRequest where
  fuse : Fuse
  signed : Bool
  deriving DecidableEq, Repr

end Sys2Proof
end

