-- ==== Sys2Proof/Config.lean ====
section
/-! DEFINITION. What is fixed for a device, and the values the spec leaves open (free values: no proof can evaluate them). -/

namespace Sys2Proof

/-- The forms of the device (00_scope.md R1 to R3). -/
inductive Form where
  | D | P | M
  deriving DecidableEq, Repr

/-- What is fused, strapped or populated (12_die.md R342; 14_package.md R366, R374, R384): plain data that no step changes. `dieCfg` and
`dieCfg2` are the fused registers of each die, `memPerDie` the bytes of memory each die carries, `straps` HUBCFG, `stage1` the images that
the boot source offers in order (the two flash copies, or the host's or the customer package's one), `loader` the Taproot loader's. -/
structure Cfg where
  form : Form
  dies : Nat
  dieCfg : Vector W64 4
  dieCfg2 : Vector W64 4
  memPerDie : Nat
  spread : Bool
  straps : W64
  keyHash : Vector (BitVec 256) 4
  dbgLock : Bool
  stage1 : List (List Byte)
  loader : List Byte
  deriving DecidableEq, Repr

/-- A full LN-7140-M: four dies with every core and way, 256 GB each, LOCAL interleave (DESIGN CHOICE, log 7). -/
def Cfg.full : Cfg where
  form := .M
  dies := 4
  dieCfg := Vector.replicate 4 0x00400000FFFFFFFF
  dieCfg2 := Vector.replicate 4 0
  memPerDie := 2 ^ 38
  spread := false
  straps := 0
  keyHash := Vector.replicate 4 0
  dbgLock := false
  stage1 := []
  loader := []

namespace Config

/-- A byte that a PCIe device or another agent outside the device answers (14_package.md R377, R378): free. -/
opaque deviceByte : Nat → Byte

/-- For byte `n` of a tile read while it changes: true if the new value is used (06_lut_engine.md R183): free. -/
opaque tileByteNew : Nat → Bool

/-- The FP32 code that a narrow-float element stands for in a sum when FP32 cannot hold its value (03_numbers.md R86): free. -/
opaque wideCode : Nat → Nat

/-- What VFLOOR gives for a value below every integral value of its type (05_vector.md R148): free. -/
opaque floorCode : Nat → Nat

/-- Whether a fetch takes the bundle that the decoded-operation cache holds, or reads the code anew (11_ordering.md R320): free. -/
opaque codeStays : Nat → Bool

/-- The set of a Heartwood slice that a line falls in, whose index function the spec does not give (12_die.md R324): free. -/
opaque heartSet : Nat → Nat

/-- Whether a Heartwood slice still holds a line that is not pinned, so that an access does not fill it (12_die.md R326): free. -/
opaque heartHeld : Nat → Bool

/-- The set of an L1 data cache and of an L2 slice that a line falls in, and which line of a full set makes room: not architected
(08_core_memory.md R228; 10_cluster.md R279): free. -/
opaque l1Set : Nat → Nat
opaque l2Set : Nat → Nat
opaque victim : Nat → Nat

/-- How many elements of a started lookup have been completed when a save stops it (09_core_traps.md R262): free. -/
opaque lutProgress : Nat → Nat

/-- Whether the customer's package of a bare die serves an access to the PCIe window, by its address (14_package.md Table 14-1): free. -/
opaque hostServes : Nat → Bool

/-- Whether another package refuses an access to one of its fabric addresses, or meets an uncorrectable error there (15_fabric.md R408): free. -/
opaque remoteRefuses : Nat → Nat → Bool
opaque remoteBad : Nat → Nat → Bool

/-- What LARM delivers where no route to the record's Nursery remained when its arm step was due (14_package.md R365): free. -/
opaque lostStatus : Nat → W64

/-- The signature of the security processor's identity key over a report (14_package.md R386), whose key the spec does not give: free. -/
opaque identitySign : List Byte → BitVec 3072

/-- The device identifier and the other values of an attestation report that the fuses hold (14_package.md R386): free. -/
opaque fusedByte : Nat → Byte

end Config

end Sys2Proof
end

