-- ==== Sys2Proof/Syntax.lean ====
section
/-! DEFINITION. The instructions of the Liurn 7140 as syntax: one constructor for each row of the opcode table (spec/02_encodings.md
Tables 2-4 to 2-8, spec/14_package.md Table 14-3) and one for each indivisible step of another agent (spec/95_what_each_step_holds.md). -/

namespace Sys2Proof

/-- The operations: the steps of every agent, and the slots of a bundle. -/
inductive Instr where
  -- steps of agents (spec/95_what_each_step_holds.md)
  | bundleIssue (d : Fin 4) (c : Fin 68)
  | writeLanding (d : Fin 4) (c : Fin 68)
  | interlockedResultArrival (d : Fin 4) (c : Fin 68) (n : Nat)
  | asyncTrapTake (d : Fin 4) (c : Fin 68)
  | haltedCauseDelivery (d : Fin 4) (c : Fin 68)
  | statRecordWrite (d : Fin 4) (c : Fin 68)
  | lookupCommandStart (d : Fin 4) (c : Fin 68)
  | lookupCommandRetire (d : Fin 4) (c : Fin 68)
  | maclrRetire (d : Fin 4) (c : Fin 68)
  | macwrRetire (d : Fin 4) (c : Fin 68)
  | mbiasRetire (d : Fin 4) (c : Fin 68)
  | mmaskStart (d : Fin 4) (c : Fin 68)
  | mmaskRetire (d : Fin 4) (c : Fin 68)
  | copyChunk (d : Fin 4) (c : Fin 68) (y : Bool)
  | copyCompletionRecord (d : Fin 4) (c : Fin 68) (y : Bool)
  | ypushFinish (d : Fin 4) (c : Fin 68) (y : Bool)
  | releasePerformed (d : Fin 4) (c : Fin 68) (n : Nat)
  | l1Writeback (d : Fin 4) (c : Fin 68) (line : Nat) (evict : Bool)
  | l2Writeback (d : Fin 4) (k : Fin 8) (line : Nat) (evict : Bool)
  | l1MissFill (d : Fin 4) (c : Fin 68) (line : Nat)
  | barrierStep (d : Fin 4) (c : Fin 68) (n : Nat)
  | sliceSetRequest (d : Fin 4) (c : Fin 68) (n : Nat)
  | l2EccError (d : Fin 4) (k : Fin 8) (e : EccError)
  | pageWalk (d : Fin 4) (c : Fin 68) (va : BitVec 64) (write : Bool)
  | tlbinvAll (d : Fin 4)
  | tlbinvAsn (d : Fin 4)
  | tlbinvRange (d : Fin 4)
  | tlbinvCwPurge (d : Fin 4)
  | tlbinvComplete (d : Fin 4)
  | pgansMapped (d : Fin 4) (tag : Nat)
  | pgansDeclined (d : Fin 4) (tag : Nat)
  | preload (d : Fin 4) (r : Fin 8)
  | pinRangeWrite (d : Fin 4) (r : Fin 8) (v : BitVec 64)
  | atlockSet (d : Fin 4)
  | atlogClear (d : Fin 4)
  | accessTableWrite (d : Fin 4) (off : Nat) (v : BitVec 64)
  | ebudgetWrite (d : Fin 4) (v : BitVec 64)
  | registerWrite (x : MasterAccess) (v : BitVec 64)
  | energyWindowBoundary (d : Fin 4)
  | energySoftLimit (d : Fin 4)
  | energyHardHold (d : Fin 4)
  | schedulerPass (d : Fin 4)
  | threadCompletion (d : Fin 4) (c : Fin 68)
  | armStep (d : Fin 4) (c : Fin 68) (n : Nat)
  | patchStep (d : Fin 4) (c : Fin 68) (n : Nat)
  | nrcmdResume (d : Fin 4) (idx : BitVec 16)
  | nrcmdEnd (d : Fin 4) (idx : BitVec 16) (code : BitVec 32)
  | nrcmdRemove (d : Fin 4) (idx : BitVec 16)
  | nrcmdPreempt (d : Fin 4) (idx : BitVec 16)
  | coldReset
  | warmReset
  | taprootStart (d : Fin 4) (t : Fin 4) (v : BitVec 64)
  | taprootInterrupt (d : Fin 4) (t : Fin 4)
  | hostDoorbell (k : Fin 64)
  | outdbSend (v : BitVec 64)
  | inboundMsi (k : Fin 64)
  | pcieInboundAccess (write : Bool) (pa : Nat) (data : List (BitVec 8))
  | gtrigWrite (v : BitVec 64)
  | triggerShadowCopy
  | triggerMessage (t : BitVec 64)
  | linkDown (l : Link)
  | canopyPortDown (p : Fin 8)
  | portTrain (p : Fin 8) (peer : Fin 16) (width : Fin 4) (ptime : BitVec 64)
  | memoryUncorrectable (d : Fin 4) (line : Nat)
  | patrolScrub (d : Fin 4) (line : Nat) (err : Option Bool)
  | attestReport (nonce : BitVec 256)
  | mrExtend (k : Fin 8) (digest : BitVec 256)
  | fuseRaise (f : FuseRequest) (v : BitVec 64)
  | debugUnlock (signed : Bool)
  | freeze (d : Fin 4) (c : Fin 68)
  | resume (d : Fin 4) (c : Fin 68)
  | step (d : Fin 4) (c : Fin 68)
  | stepover (d : Fin 4) (c : Fin 68)
  | read (d : Fin 4) (c : Fin 68)
  | cancel (d : Fin 4) (c : Fin 68)
  | reinject (d : Fin 4) (c : Fin 68)
  | write (d : Fin 4) (c : Fin 68)
  | thermalThrottle (d : Fin 4)
  | thermalHold (d : Fin 4)
  | thermalHoldRelease (d : Fin 4)
  | thermtrip (d : Fin 4)
  | fabricInboundAccess (src : Nat) (pa : Nat) (x : Inbound)
  | fabricWriteAck (n : Nat)
  | switchMerge (a b : Nat)
  | homeMerge (x : Merge)
  | fabredWrite (n : Fin 16) (upper : Bool) (v : BitVec 64)
  | routeWrite (n : Fin 15) (v : BitVec 64)
  | fabcfgWrite (v : BitVec 64)
  | lkiLoad (base : Nat) (size : Nat)
  | storeQueueDrain (d : Fin 4) (c : Fin 68) (n : Nat)
  -- control class, slot 0 (Table 2-4)
  | cnop
  | br (g : Guard) (bt : Fin 8)
  | brp (g : Guard) (bt : Fin 8) (neg : Bool) (ps : Fin 8)
  | brlc (g : Guard) (bt : Fin 8) (lc : Fin 4)
  | brl (g : Guard) (bt bl : Fin 8)
  | brx (g : Guard) (a : Fin 32)
  | halt (g : Guard)
  | delay (g : Guard) (n : BitVec 16)
  | pbr (g : Guard) (bd : Fin 8) (i : BitVec 18)
  | pbrs (g : Guard) (d : Fin 8) (a : Fin 32)
  | bget (g : Guard) (d : Fin 32) (a : Fin 8)
  | btok (g : Guard) (d : Fin 8) (e : Eng)
  | lcset (g : Guard) (d : Fin 4) (n : BitVec 16)
  | lcsets (g : Guard) (d : Fin 4) (a : Fin 32)
  | lcget (g : Guard) (d : Fin 32) (a : Fin 4)
  | skset (g : Guard) (d : Fin 3) (n : Bool)
  | sksets (g : Guard) (d : Fin 3) (a : Fin 32)
  | skget (g : Guard) (d : Fin 32) (a : Fin 3)
  | shape (g : Guard) (d : Fin 4) (a b : Fin 32)
  | shapex (g : Guard) (d : Fin 4) (a : Fin 32) (imm : BitVec 32)
  | shget (g : Guard) (d : Fin 32) (a : Fin 4)
  | fdset (g : Guard) (d : Fin 4) (a : Fin 32)
  | fdget (g : Guard) (d : Fin 32) (a : Fin 4)
  | hinit (g : Guard) (d : Fin 16) (a : Fin 32)
  | hwait (g : Guard) (d : Fin 16) (n : BitVec 11)
  | hres (g : Guard) (d : Fin 16) (n : BitVec 11)
  | hadv (g : Guard) (d : Fin 16) (n : BitVec 11)
  | hcommit (g : Guard) (d : Fin 16) (a : Fin 32)
  | hget (g : Guard) (d : Fin 32) (a : Fin 16)
  | hstat (g : Guard) (d : Fin 32) (a : Fin 16)
  | qfence (g : Guard) (m : BitVec 5)
  | barinit (g : Guard) (a : Fin 32) (n : BitVec 11)
  | bararv (g : Guard) (sc : Scope) (n : BitVec 11)
  | barwait (g : Guard) (sc : Scope) (n : BitVec 11)
  | barrem (g : Guard) (a : Fin 32) (sc : Scope)
  | gjoin (g : Guard) (a : Fin 32)
  | gleave (g : Guard) (a : Fin 32)
  | lpatch (g : Guard) (a b : Fin 32) (k : Fin 8)
  | larm (g : Guard) (d a : Fin 32)
  | lwait (g : Guard) (a : Fin 16)
  | trap (g : Guard) (n : BitVec 16)
  | rft (g : Guard)
  | brk (g : Guard) (n : BitVec 16)
  | csrrd (g : Guard) (d : Fin 32) (n : BitVec 11)
  | csrwr (g : Guard) (a : Fin 32) (n : BitVec 11)
  | csrset (g : Guard) (a : Fin 32) (n : BitVec 11)
  | csrclr (g : Guard) (a : Fin 32) (n : BitVec 11)
  | scall (g : Guard) (n : BitVec 16)
  | sret (g : Guard)
  | wfi (g : Guard)
  | tbwait (g : Guard) (d a : Fin 32)
  -- scalar class, slot 1 (Table 2-5)
  | snop
  | add (g : Guard) (d a b : Fin 32)
  | sub (g : Guard) (d a b : Fin 32)
  | mul (g : Guard) (d a b : Fin 32)
  | mulh (g : Guard) (d a b : Fin 32)
  | mulhu (g : Guard) (d a b : Fin 32)
  | and (g : Guard) (d a b : Fin 32)
  | or (g : Guard) (d a b : Fin 32)
  | xor (g : Guard) (d a b : Fin 32)
  | andn (g : Guard) (d a b : Fin 32)
  | orn (g : Guard) (d a b : Fin 32)
  | shl (g : Guard) (d a b : Fin 32)
  | shr (g : Guard) (d a b : Fin 32)
  | sra (g : Guard) (d a b : Fin 32)
  | rol (g : Guard) (d a b : Fin 32)
  | min (g : Guard) (d a b : Fin 32)
  | max (g : Guard) (d a b : Fin 32)
  | minu (g : Guard) (d a b : Fin 32)
  | maxu (g : Guard) (d a b : Fin 32)
  | slt (g : Guard) (d a b : Fin 32)
  | sltu (g : Guard) (d a b : Fin 32)
  | seq (g : Guard) (d a b : Fin 32)
  | sne (g : Guard) (d a b : Fin 32)
  | clz (g : Guard) (d a : Fin 32)
  | mov (g : Guard) (d a : Fin 32)
  | ctz (g : Guard) (d a : Fin 32)
  | popc (g : Guard) (d a : Fin 32)
  | sext (g : Guard) (d a : Fin 32) (w : Width)
  | zext (g : Guard) (d a : Fin 32) (w : Width)
  | addi (g : Guard) (d a : Fin 32) (i : BitVec 11)
  | muli (g : Guard) (d a : Fin 32) (i : BitVec 11)
  | andi (g : Guard) (d a : Fin 32) (i : BitVec 11)
  | ori (g : Guard) (d a : Fin 32) (i : BitVec 11)
  | xori (g : Guard) (d a : Fin 32) (i : BitVec 11)
  | shli (g : Guard) (d a : Fin 32) (i : BitVec 11)
  | shri (g : Guard) (d a : Fin 32) (i : BitVec 11)
  | srai (g : Guard) (d a : Fin 32) (i : BitVec 11)
  | roli (g : Guard) (d a : Fin 32) (i : BitVec 11)
  | slti (g : Guard) (d a : Fin 32) (i : BitVec 11)
  | sltui (g : Guard) (d a : Fin 32) (i : BitVec 11)
  | seqi (g : Guard) (d a : Fin 32) (i : BitVec 11)
  | mini (g : Guard) (d a : Fin 32) (i : BitVec 11)
  | maxi (g : Guard) (d a : Fin 32) (i : BitVec 11)
  | li (g : Guard) (d : Fin 32) (imm : BitVec 32)
  | lih (g : Guard) (d : Fin 32) (imm : BitVec 32)
  | addx (g : Guard) (d a : Fin 32) (imm : BitVec 32)
  | andx (g : Guard) (d a : Fin 32) (imm : BitVec 32)
  | orx (g : Guard) (d a : Fin 32) (imm : BitVec 32)
  | xorx (g : Guard) (d a : Fin 32) (imm : BitVec 32)
  | spset (g : Guard) (d : Fin 8) (a : Fin 32)
  | spany (g : Guard) (d : Fin 32) (a : Fin 8)
  | spall (g : Guard) (d : Fin 32) (a : Fin 8)
  | spcnt (g : Guard) (d : Fin 32) (a : Fin 8)
  | scyc (g : Guard) (d : Fin 32)
  | svl (g : Guard) (d : Fin 32)
  | bswap (g : Guard) (d a : Fin 32)
  -- address class, slot 2 (Table 2-6)
  | anop
  | aadd (g : Guard) (d a : Fin 16) (b : Fin 32)
  | asub (g : Guard) (d a : Fin 16) (b : Fin 32)
  | aadda (g : Guard) (d a b : Fin 16)
  | amov (g : Guard) (d a : Fin 16)
  | asets (g : Guard) (d : Fin 16) (a : Fin 32)
  | agets (g : Guard) (d : Fin 32) (a : Fin 16)
  | aaddi (g : Guard) (d a : Fin 16) (i : BitVec 11)
  | ali (g : Guard) (d : Fin 16) (imm : BitVec 32)
  | alih (g : Guard) (d : Fin 16) (imm : BitVec 32)
  | aaddx (g : Guard) (d a : Fin 16) (imm : BitVec 32)
  | ldspI8 (g : Guard) (d : Fin 32) (ab : Fin 16) (pi : Bool) (i : BitVec 11)
  | ldspI16 (g : Guard) (d : Fin 32) (ab : Fin 16) (pi : Bool) (i : BitVec 11)
  | ldspI32 (g : Guard) (d : Fin 32) (ab : Fin 16) (pi : Bool) (i : BitVec 11)
  | ldspI64 (g : Guard) (d : Fin 32) (ab : Fin 16) (pi : Bool) (i : BitVec 11)
  | ldspUi8 (g : Guard) (d : Fin 32) (ab : Fin 16) (pi : Bool) (i : BitVec 11)
  | ldspUi16 (g : Guard) (d : Fin 32) (ab : Fin 16) (pi : Bool) (i : BitVec 11)
  | ldspUi32 (g : Guard) (d : Fin 32) (ab : Fin 16) (pi : Bool) (i : BitVec 11)
  | stspI8 (g : Guard) (d : Fin 32) (ab : Fin 16) (pi : Bool) (i : BitVec 11)
  | stspI16 (g : Guard) (d : Fin 32) (ab : Fin 16) (pi : Bool) (i : BitVec 11)
  | stspI32 (g : Guard) (d : Fin 32) (ab : Fin 16) (pi : Bool) (i : BitVec 11)
  | stspI64 (g : Guard) (d : Fin 32) (ab : Fin 16) (pi : Bool) (i : BitVec 11)
  | ldgI8 (g : Guard) (d : Fin 32) (ab : Fin 16) (pi : Bool) (i : BitVec 11)
  | ldgI16 (g : Guard) (d : Fin 32) (ab : Fin 16) (pi : Bool) (i : BitVec 11)
  | ldgI32 (g : Guard) (d : Fin 32) (ab : Fin 16) (pi : Bool) (i : BitVec 11)
  | ldgI64 (g : Guard) (d : Fin 32) (ab : Fin 16) (pi : Bool) (i : BitVec 11)
  | ldgUi8 (g : Guard) (d : Fin 32) (ab : Fin 16) (pi : Bool) (i : BitVec 11)
  | ldgUi16 (g : Guard) (d : Fin 32) (ab : Fin 16) (pi : Bool) (i : BitVec 11)
  | ldgUi32 (g : Guard) (d : Fin 32) (ab : Fin 16) (pi : Bool) (i : BitVec 11)
  | stgI8 (g : Guard) (d : Fin 32) (ab : Fin 16) (pi : Bool) (i : BitVec 11)
  | stgI16 (g : Guard) (d : Fin 32) (ab : Fin 16) (pi : Bool) (i : BitVec 11)
  | stgI32 (g : Guard) (d : Fin 32) (ab : Fin 16) (pi : Bool) (i : BitVec 11)
  | stgI64 (g : Guard) (d : Fin 32) (ab : Fin 16) (pi : Bool) (i : BitVec 11)
  | ldf (g : Guard) (d : Fin 32) (ab : Fin 16) (pi : Bool) (i : BitVec 11)
  | ldfe (g : Guard) (d : Fin 32) (ab : Fin 16) (pi : Bool) (i : BitVec 11)
  | ste (g : Guard) (d : Fin 32) (ab : Fin 16) (pi : Bool) (i : BitVec 11)
  | feemp (g : Guard) (ab : Fin 16) (pi : Bool) (i : BitVec 11)
  | waita (g : Guard) (d : Fin 32) (ab : Fin 16) (pi : Bool) (i : BitVec 11)
  | amadd (g : Guard) (d : Fin 32) (a : Fin 16) (b : Fin 32) (w : Bool)
  | amand (g : Guard) (d : Fin 32) (a : Fin 16) (b : Fin 32) (w : Bool)
  | amor (g : Guard) (d : Fin 32) (a : Fin 16) (b : Fin 32) (w : Bool)
  | amxor (g : Guard) (d : Fin 32) (a : Fin 16) (b : Fin 32) (w : Bool)
  | ammin (g : Guard) (d : Fin 32) (a : Fin 16) (b : Fin 32) (w : Bool)
  | ammax (g : Guard) (d : Fin 32) (a : Fin 16) (b : Fin 32) (w : Bool)
  | amswp (g : Guard) (d : Fin 32) (a : Fin 16) (b : Fin 32) (w : Bool)
  | amcas (g : Guard) (d : Fin 32) (a : Fin 16) (b : Fin 32) (w : Bool)
  | ldaqI32 (g : Guard) (d : Fin 32) (ab : Fin 16) (sc : Scope) (i : BitVec 9)
  | ldaqI64 (g : Guard) (d : Fin 32) (ab : Fin 16) (sc : Scope) (i : BitVec 9)
  | strlI32 (g : Guard) (d : Fin 32) (ab : Fin 16) (sc : Scope) (i : BitVec 9)
  | strlI64 (g : Guard) (d : Fin 32) (ab : Fin 16) (sc : Scope) (i : BitVec 9)
  | qmark (g : Guard)
  | l1fl (g : Guard) (sc : Scope)
  | l1inv (g : Guard) (sc : Scope)
  | l1fll (g : Guard) (ab : Fin 16) (i : BitVec 11)
  | l1invl (g : Guard) (ab : Fin 16) (i : BitVec 11)
  | ldpf (g : Guard) (ab : Fin 16) (i : BitVec 11)
  -- vector class, slots 3 and 4 (Table 2-7); `u` is true in slot 4
  | vnop (u : Bool)
  | vadd (g : Guard) (u : Bool) (vd : Fin 32) (va vb : Fin 40) (t : Ty)
  | vsub (g : Guard) (u : Bool) (vd : Fin 32) (va vb : Fin 40) (t : Ty)
  | vmul (g : Guard) (u : Bool) (vd : Fin 32) (va vb : Fin 40) (t : Ty)
  | vmulh (g : Guard) (u : Bool) (vd : Fin 32) (va vb : Fin 40) (t : Ty)
  | vadds (g : Guard) (u : Bool) (vd : Fin 32) (va vb : Fin 40) (t : Ty)
  | vsubs (g : Guard) (u : Bool) (vd : Fin 32) (va vb : Fin 40) (t : Ty)
  | vmin (g : Guard) (u : Bool) (vd : Fin 32) (va vb : Fin 40) (t : Ty)
  | vmax (g : Guard) (u : Bool) (vd : Fin 32) (va vb : Fin 40) (t : Ty)
  | vabs (g : Guard) (u : Bool) (vd : Fin 32) (va : Fin 40) (t : Ty)
  | vneg (g : Guard) (u : Bool) (vd : Fin 32) (va : Fin 40) (t : Ty)
  | vand (g : Guard) (u : Bool) (vd : Fin 32) (va vb : Fin 40) (t : Ty)
  | vor (g : Guard) (u : Bool) (vd : Fin 32) (va vb : Fin 40) (t : Ty)
  | vxor (g : Guard) (u : Bool) (vd : Fin 32) (va vb : Fin 40) (t : Ty)
  | vnot (g : Guard) (u : Bool) (vd : Fin 32) (va : Fin 40) (t : Ty)
  | vshl (g : Guard) (u : Bool) (vd : Fin 32) (va vb : Fin 40) (t : Ty)
  | vshr (g : Guard) (u : Bool) (vd : Fin 32) (va vb : Fin 40) (t : Ty)
  | vsra (g : Guard) (u : Bool) (vd : Fin 32) (va vb : Fin 40) (t : Ty)
  | vavg (g : Guard) (u : Bool) (vd : Fin 32) (va vb : Fin 40) (t : Ty)
  | vabsd (g : Guard) (u : Bool) (vd : Fin 32) (va vb : Fin 40) (t : Ty)
  | vclz (g : Guard) (u : Bool) (vd : Fin 32) (va : Fin 40) (t : Ty)
  | vpopc (g : Guard) (u : Bool) (vd : Fin 32) (va : Fin 40) (t : Ty)
  | vmov (g : Guard) (u : Bool) (vd : Fin 32) (va : Fin 40) (t : Ty)
  | vrsum (g : Guard) (u : Bool) (vd : Fin 32) (va : Fin 40) (t : Ty)
  | vrmax (g : Guard) (u : Bool) (vd : Fin 32) (va : Fin 40) (t : Ty)
  | vrmin (g : Guard) (u : Bool) (vd : Fin 32) (va : Fin 40) (t : Ty)
  | vperm (g : Guard) (u : Bool) (vd : Fin 32) (va vb : Fin 40) (t : Ty)
  | vzip (g : Guard) (u : Bool) (vd : Fin 32) (va vb : Fin 40) (t : Ty)
  | vunzip (g : Guard) (u : Bool) (vd : Fin 32) (va vb : Fin 40) (t : Ty)
  | vmaxexp (g : Guard) (u : Bool) (va : Fin 40) (t : Ty)
  | vseedx (g : Guard) (u : Bool) (vd : Fin 32) (va : Fin 40) (t : Ty)
  | vseedc (g : Guard) (u : Bool) (vd : Fin 32) (va vb : Fin 40) (t : Ty)
  | vfma (g : Guard) (u : Bool) (vd : Fin 32) (va vb : Fin 40) (t : Ty) (vc : Fin 40) (rm : Rm)
  | vfms (g : Guard) (u : Bool) (vd : Fin 32) (va vb : Fin 40) (t : Ty) (vc : Fin 40) (rm : Rm)
  | vfnma (g : Guard) (u : Bool) (vd : Fin 32) (va vb : Fin 40) (t : Ty) (vc : Fin 40) (rm : Rm)
  | vfnms (g : Guard) (u : Bool) (vd : Fin 32) (va vb : Fin 40) (t : Ty) (vc : Fin 40) (rm : Rm)
  | vsel (g : Guard) (u : Bool) (vd : Fin 32) (va vb : Fin 40) (t : Ty) (ps : Fin 8)
  | vaddr (g : Guard) (u : Bool) (vd : Fin 32) (va vb : Fin 40) (t : Ty) (rm : Rm)
  | vmulr (g : Guard) (u : Bool) (vd : Fin 32) (va vb : Fin 40) (t : Ty) (rm : Rm)
  | vcvt (g : Guard) (u : Bool) (vd : Fin 32) (va : Fin 40) (ts td : Ty) (sc : BitVec 6) (rm : Rm) (part : Fin 8)
  | vaddi (g : Guard) (u : Bool) (vd : Fin 32) (va : Fin 40) (t : Ty) (imm : BitVec 32)
  | vmuli (g : Guard) (u : Bool) (vd : Fin 32) (va : Fin 40) (t : Ty) (imm : BitVec 32)
  | vandi (g : Guard) (u : Bool) (vd : Fin 32) (va : Fin 40) (t : Ty) (imm : BitVec 32)
  | vori (g : Guard) (u : Bool) (vd : Fin 32) (va : Fin 40) (t : Ty) (imm : BitVec 32)
  | vshli (g : Guard) (u : Bool) (vd : Fin 32) (va : Fin 40) (t : Ty) (imm : BitVec 32)
  | vshri (g : Guard) (u : Bool) (vd : Fin 32) (va : Fin 40) (t : Ty) (imm : BitVec 32)
  | vsrai (g : Guard) (u : Bool) (vd : Fin 32) (va : Fin 40) (t : Ty) (imm : BitVec 32)
  | vbcst (g : Guard) (u : Bool) (vd : Fin 32) (t : Ty) (imm : BitVec 32)
  | vcmpeq (g : Guard) (u : Bool) (pd : Fin 8) (va vb : Fin 40) (t : Ty)
  | vcmpne (g : Guard) (u : Bool) (pd : Fin 8) (va vb : Fin 40) (t : Ty)
  | vcmplt (g : Guard) (u : Bool) (pd : Fin 8) (va vb : Fin 40) (t : Ty)
  | vcmple (g : Guard) (u : Bool) (pd : Fin 8) (va vb : Fin 40) (t : Ty)
  | vcmpgt (g : Guard) (u : Bool) (pd : Fin 8) (va vb : Fin 40) (t : Ty)
  | vcmpge (g : Guard) (u : Bool) (pd : Fin 8) (va vb : Fin 40) (t : Ty)
  | vcmpun (g : Guard) (u : Bool) (pd : Fin 8) (va vb : Fin 40) (t : Ty)
  | vclass (g : Guard) (u : Bool) (pd : Fin 8) (va vb : Fin 40) (t : Ty)
  | vpand (g : Guard) (u : Bool) (pd pa pb : Fin 8)
  | vpor (g : Guard) (u : Bool) (pd pa pb : Fin 8)
  | vpxor (g : Guard) (u : Bool) (pd pa pb : Fin 8)
  | vpandn (g : Guard) (u : Bool) (pd pa pb : Fin 8)
  | vexp (g : Guard) (u : Bool) (vd : Fin 32) (va : Fin 40) (t : Ty)
  | vexp2 (g : Guard) (u : Bool) (vd : Fin 32) (va : Fin 40) (t : Ty)
  | vlog (g : Guard) (u : Bool) (vd : Fin 32) (va : Fin 40) (t : Ty)
  | vlog2 (g : Guard) (u : Bool) (vd : Fin 32) (va : Fin 40) (t : Ty)
  | vrcp (g : Guard) (u : Bool) (vd : Fin 32) (va : Fin 40) (t : Ty)
  | vrsq (g : Guard) (u : Bool) (vd : Fin 32) (va : Fin 40) (t : Ty)
  | vsqrt (g : Guard) (u : Bool) (vd : Fin 32) (va : Fin 40) (t : Ty)
  | vtanh (g : Guard) (u : Bool) (vd : Fin 32) (va : Fin 40) (t : Ty)
  | vsigm (g : Guard) (u : Bool) (vd : Fin 32) (va : Fin 40) (t : Ty)
  | vsilu (g : Guard) (u : Bool) (vd : Fin 32) (va : Fin 40) (t : Ty)
  | vgelu (g : Guard) (u : Bool) (vd : Fin 32) (va : Fin 40) (t : Ty)
  | vsin (g : Guard) (u : Bool) (vd : Fin 32) (va : Fin 40) (t : Ty)
  | vcos (g : Guard) (u : Bool) (vd : Fin 32) (va : Fin 40) (t : Ty)
  | verf (g : Guard) (u : Bool) (vd : Fin 32) (va : Fin 40) (t : Ty)
  | vtbld (g : Guard) (u : Bool) (h : Fin 16) (va vb : Fin 40)
  | vtwr (g : Guard) (u : Bool) (vd : Fin 32) (x : Fin 4) (k : Fin 16) (td ts : Ty) (rm : Rm)
  | vtrd (g : Guard) (u : Bool) (vd : Fin 32) (x : Fin 4) (k : Fin 16) (td ts : Ty) (rm : Rm)
  | vld (g : Guard) (u : Bool) (vd : Fin 32) (ab : Fin 16) (sp pi : Bool) (i : BitVec 10)
  | vst (g : Guard) (u : Bool) (vd : Fin 32) (ab : Fin 16) (sp pi : Bool) (i : BitVec 10)
  | vldb (g : Guard) (u : Bool) (vd : Fin 32) (ab : Fin 16) (sp pi : Bool) (i : BitVec 10)
  | vldnt (g : Guard) (u : Bool) (vd : Fin 32) (ab : Fin 16) (sp pi : Bool) (i : BitVec 10)
  | vstnt (g : Guard) (u : Bool) (vd : Fin 32) (ab : Fin 16) (sp pi : Bool) (i : BitVec 10)
  | vgath (g : Guard) (u : Bool) (vd : Fin 32) (ab : Fin 16) (sp : Bool) (vi : Fin 40) (es : Width)
  | vscat (g : Guard) (u : Bool) (vd : Fin 32) (ab : Fin 16) (sp : Bool) (vi : Fin 40) (es : Width)
  | vscata (g : Guard) (u : Bool) (vd : Fin 32) (ab : Fin 16) (sp : Bool) (vi : Fin 40) (es : Width)
  | vwiden (g : Guard) (u : Bool) (vd : Fin 32) (va : Fin 40) (t : Ty)
  | vnarrow (g : Guard) (u : Bool) (vd : Fin 32) (va vb : Fin 40) (t : Ty)
  | vpack (g : Guard) (u : Bool) (vd : Fin 32) (va vb : Fin 40) (t : Ty)
  | vunpack (g : Guard) (u : Bool) (vd : Fin 32) (va : Fin 40) (t : Ty)
  | vsumw (g : Guard) (u : Bool) (vd : Fin 32) (va vb : Fin 40) (t : Ty)
  | vdot2 (g : Guard) (u : Bool) (vd : Fin 32) (va vb : Fin 40) (t : Ty)
  | vscale (g : Guard) (u : Bool) (vd : Fin 32) (va vb : Fin 40) (t : Ty)
  | vround (g : Guard) (u : Bool) (vd : Fin 32) (va : Fin 40) (t : Ty)
  | vfloor (g : Guard) (u : Bool) (vd : Fin 32) (va : Fin 40) (t : Ty)
  | vslide (g : Guard) (u : Bool) (vd : Fin 32) (va vb : Fin 40) (t : Ty)
  | vrev (g : Guard) (u : Bool) (vd : Fin 32) (va : Fin 40) (t : Ty)
  -- matrix class, slot 5 (Table 2-8)
  | mnop
  | mcbset (g : Guard) (s : Fin 32) (sel : Fin 8)
  | mlut (g : Guard) (ht hw : Fin 16) (row : Fin 64) (col : Fin 16) (sh : Fin 4) (clr : Bool)
  | mlutg (g : Guard) (ht hw : Fin 16) (row : Fin 64) (col : Fin 16) (sh : Fin 4) (clr : Bool) (hp hs : Fin 16)
  | mluts (g : Guard) (ht hw : Fin 16) (row : Fin 64) (col : Fin 16) (sh : Fin 4) (clr : Bool)
  | mlutsg (g : Guard) (ht hw : Fin 16) (row : Fin 64) (col : Fin 16) (sh : Fin 4) (clr : Bool) (hp hs : Fin 16)
  | maclr (g : Guard) (row : Fin 64) (col : Fin 16) (sh : Fin 4)
  | mmask (g : Guard) (ht : Fin 16)
  | mstat (g : Guard) (s : Fin 32) (n : Fin 8)
  | mcbget (g : Guard) (s : Fin 32) (sel : Fin 8)
  | macrd (g : Guard) (vd : Fin 32) (row : Fin 64) (col : Fin 16)
  | macwr (g : Guard) (vd : Fin 32) (row : Fin 64) (col : Fin 16)
  | mbias (g : Guard) (vd : Fin 32) (row : Fin 64) (col : Fin 16)
  | mreset (g : Guard)
  | mlutk (g : Guard) (ht hw : Fin 16) (row : Fin 64) (col : Fin 16) (sh : Fin 4) (clr : Bool)
  | mlutgk (g : Guard) (ht hw : Fin 16) (row : Fin 64) (col : Fin 16) (sh : Fin 4) (clr : Bool) (hp hs : Fin 16)
  -- copy class, slots 6 and 7 (Table 2-8); `u` is true in slot 7
  | ynop (u : Bool)
  | ycopy (g : Guard) (u : Bool) (ab : Fin 16) (pi lock : Bool) (sc : Scope)
  | ypush (g : Guard) (u : Bool) (ab : Fin 16) (pi lock : Bool) (sc : Scope)
  | yacc (g : Guard) (u : Bool) (ab : Fin 16) (pi lock : Bool) (sc : Scope)
  | yaccp (g : Guard) (u : Bool) (ab : Fin 16) (pi lock : Bool) (sc : Scope)
  | ymx4 (g : Guard) (u : Bool) (ab : Fin 16) (pi lock : Bool) (sc : Scope)
  | ysadd (g : Guard) (u : Bool) (ab : Fin 16) (pi lock : Bool) (sc : Scope)
  | yatom (g : Guard) (u : Bool) (ab : Fin 16) (pi lock : Bool) (sc : Scope)
  | ypref (g : Guard) (u : Bool) (ab : Fin 16) (pi lock : Bool) (sc : Scope)
  | yfill (g : Guard) (u : Bool) (ab : Fin 16) (pi lock : Bool) (sc : Scope)
  | yrem (g : Guard) (u : Bool) (ab : Fin 16) (pi lock : Bool) (sc : Scope)
  | ygath (g : Guard) (u : Bool) (ab : Fin 16) (pi lock : Bool) (sc : Scope)
  | yscat (g : Guard) (u : Bool) (ab : Fin 16) (pi lock : Bool) (sc : Scope)
  | yline (g : Guard) (u : Bool) (ab : Fin 16) (pi lock : Bool) (sc : Scope)
  | ycancel (g : Guard) (u : Bool)
  | yldv (g : Guard) (u : Bool) (ab : Fin 16) (pi : Bool) (vd : Fin 32)
  deriving DecidableEq, Repr

end Sys2Proof
end

