-- ==== Sys2Proof/Slot.lean ====
section
/-! DEFINITION. What one slot of a bundle holds: an operation of the slot's class and a guard (01_bundles.md R11, R25). Each operation
is the part of one constructor of Instr that no other field of the slot word carries; `Slot.instr` and `Instr.slot` go between the two.
The decoder yields slots, because a bundle can hold nothing else. -/

namespace Sys2Proof

/-- Operations of the control class, slot 0 (Table 2-4). -/
inductive ControlOp where
  | cnop
  | br (bt : Fin 8)
  | brp (bt : Fin 8) (neg : Bool) (ps : Fin 8)
  | brlc (bt : Fin 8) (lc : Fin 4)
  | brl (bt bl : Fin 8)
  | brx (a : Fin 32)
  | halt
  | delay (n : BitVec 16)
  | pbr (bd : Fin 8) (i : BitVec 18)
  | pbrs (d : Fin 8) (a : Fin 32)
  | bget (d : Fin 32) (a : Fin 8)
  | btok (d : Fin 8) (e : Eng)
  | lcset (d : Fin 4) (n : BitVec 16)
  | lcsets (d : Fin 4) (a : Fin 32)
  | lcget (d : Fin 32) (a : Fin 4)
  | skset (d : Fin 3) (n : Bool)
  | sksets (d : Fin 3) (a : Fin 32)
  | skget (d : Fin 32) (a : Fin 3)
  | shape (d : Fin 4) (a b : Fin 32)
  | shapex (d : Fin 4) (a : Fin 32) (imm : BitVec 32)
  | shget (d : Fin 32) (a : Fin 4)
  | fdset (d : Fin 4) (a : Fin 32)
  | fdget (d : Fin 32) (a : Fin 4)
  | hinit (d : Fin 16) (a : Fin 32)
  | hwait (d : Fin 16) (n : BitVec 11)
  | hres (d : Fin 16) (n : BitVec 11)
  | hadv (d : Fin 16) (n : BitVec 11)
  | hcommit (d : Fin 16) (a : Fin 32)
  | hget (d : Fin 32) (a : Fin 16)
  | hstat (d : Fin 32) (a : Fin 16)
  | qfence (m : BitVec 5)
  | barinit (a : Fin 32) (n : BitVec 11)
  | bararv (sc : Scope) (n : BitVec 11)
  | barwait (sc : Scope) (n : BitVec 11)
  | barrem (a : Fin 32) (sc : Scope)
  | gjoin (a : Fin 32)
  | gleave (a : Fin 32)
  | lpatch (a b : Fin 32) (k : Fin 8)
  | larm (d a : Fin 32)
  | lwait (a : Fin 16)
  | trap (n : BitVec 16)
  | rft
  | brk (n : BitVec 16)
  | csrrd (d : Fin 32) (n : BitVec 11)
  | csrwr (a : Fin 32) (n : BitVec 11)
  | csrset (a : Fin 32) (n : BitVec 11)
  | csrclr (a : Fin 32) (n : BitVec 11)
  | scall (n : BitVec 16)
  | sret
  | wfi
  | tbwait (d a : Fin 32)
  deriving DecidableEq, Repr

/-- Operations of the scalar class, slot 1 (Table 2-5). -/
inductive ScalarOp where
  | snop
  | add (d a b : Fin 32)
  | sub (d a b : Fin 32)
  | mul (d a b : Fin 32)
  | mulh (d a b : Fin 32)
  | mulhu (d a b : Fin 32)
  | and (d a b : Fin 32)
  | or (d a b : Fin 32)
  | xor (d a b : Fin 32)
  | andn (d a b : Fin 32)
  | orn (d a b : Fin 32)
  | shl (d a b : Fin 32)
  | shr (d a b : Fin 32)
  | sra (d a b : Fin 32)
  | rol (d a b : Fin 32)
  | min (d a b : Fin 32)
  | max (d a b : Fin 32)
  | minu (d a b : Fin 32)
  | maxu (d a b : Fin 32)
  | slt (d a b : Fin 32)
  | sltu (d a b : Fin 32)
  | seq (d a b : Fin 32)
  | sne (d a b : Fin 32)
  | clz (d a : Fin 32)
  | mov (d a : Fin 32)
  | ctz (d a : Fin 32)
  | popc (d a : Fin 32)
  | sext (d a : Fin 32) (w : Width)
  | zext (d a : Fin 32) (w : Width)
  | addi (d a : Fin 32) (i : BitVec 11)
  | muli (d a : Fin 32) (i : BitVec 11)
  | andi (d a : Fin 32) (i : BitVec 11)
  | ori (d a : Fin 32) (i : BitVec 11)
  | xori (d a : Fin 32) (i : BitVec 11)
  | shli (d a : Fin 32) (i : BitVec 11)
  | shri (d a : Fin 32) (i : BitVec 11)
  | srai (d a : Fin 32) (i : BitVec 11)
  | roli (d a : Fin 32) (i : BitVec 11)
  | slti (d a : Fin 32) (i : BitVec 11)
  | sltui (d a : Fin 32) (i : BitVec 11)
  | seqi (d a : Fin 32) (i : BitVec 11)
  | mini (d a : Fin 32) (i : BitVec 11)
  | maxi (d a : Fin 32) (i : BitVec 11)
  | li (d : Fin 32) (imm : BitVec 32)
  | lih (d : Fin 32) (imm : BitVec 32)
  | addx (d a : Fin 32) (imm : BitVec 32)
  | andx (d a : Fin 32) (imm : BitVec 32)
  | orx (d a : Fin 32) (imm : BitVec 32)
  | xorx (d a : Fin 32) (imm : BitVec 32)
  | spset (d : Fin 8) (a : Fin 32)
  | spany (d : Fin 32) (a : Fin 8)
  | spall (d : Fin 32) (a : Fin 8)
  | spcnt (d : Fin 32) (a : Fin 8)
  | scyc (d : Fin 32)
  | svl (d : Fin 32)
  | bswap (d a : Fin 32)
  deriving DecidableEq, Repr

/-- Operations of the address class, slot 2 (Table 2-6). -/
inductive AddressOp where
  | anop
  | aadd (d a : Fin 16) (b : Fin 32)
  | asub (d a : Fin 16) (b : Fin 32)
  | aadda (d a b : Fin 16)
  | amov (d a : Fin 16)
  | asets (d : Fin 16) (a : Fin 32)
  | agets (d : Fin 32) (a : Fin 16)
  | aaddi (d a : Fin 16) (i : BitVec 11)
  | ali (d : Fin 16) (imm : BitVec 32)
  | alih (d : Fin 16) (imm : BitVec 32)
  | aaddx (d a : Fin 16) (imm : BitVec 32)
  | ldspI8 (d : Fin 32) (ab : Fin 16) (pi : Bool) (i : BitVec 11)
  | ldspI16 (d : Fin 32) (ab : Fin 16) (pi : Bool) (i : BitVec 11)
  | ldspI32 (d : Fin 32) (ab : Fin 16) (pi : Bool) (i : BitVec 11)
  | ldspI64 (d : Fin 32) (ab : Fin 16) (pi : Bool) (i : BitVec 11)
  | ldspUi8 (d : Fin 32) (ab : Fin 16) (pi : Bool) (i : BitVec 11)
  | ldspUi16 (d : Fin 32) (ab : Fin 16) (pi : Bool) (i : BitVec 11)
  | ldspUi32 (d : Fin 32) (ab : Fin 16) (pi : Bool) (i : BitVec 11)
  | stspI8 (d : Fin 32) (ab : Fin 16) (pi : Bool) (i : BitVec 11)
  | stspI16 (d : Fin 32) (ab : Fin 16) (pi : Bool) (i : BitVec 11)
  | stspI32 (d : Fin 32) (ab : Fin 16) (pi : Bool) (i : BitVec 11)
  | stspI64 (d : Fin 32) (ab : Fin 16) (pi : Bool) (i : BitVec 11)
  | ldgI8 (d : Fin 32) (ab : Fin 16) (pi : Bool) (i : BitVec 11)
  | ldgI16 (d : Fin 32) (ab : Fin 16) (pi : Bool) (i : BitVec 11)
  | ldgI32 (d : Fin 32) (ab : Fin 16) (pi : Bool) (i : BitVec 11)
  | ldgI64 (d : Fin 32) (ab : Fin 16) (pi : Bool) (i : BitVec 11)
  | ldgUi8 (d : Fin 32) (ab : Fin 16) (pi : Bool) (i : BitVec 11)
  | ldgUi16 (d : Fin 32) (ab : Fin 16) (pi : Bool) (i : BitVec 11)
  | ldgUi32 (d : Fin 32) (ab : Fin 16) (pi : Bool) (i : BitVec 11)
  | stgI8 (d : Fin 32) (ab : Fin 16) (pi : Bool) (i : BitVec 11)
  | stgI16 (d : Fin 32) (ab : Fin 16) (pi : Bool) (i : BitVec 11)
  | stgI32 (d : Fin 32) (ab : Fin 16) (pi : Bool) (i : BitVec 11)
  | stgI64 (d : Fin 32) (ab : Fin 16) (pi : Bool) (i : BitVec 11)
  | ldf (d : Fin 32) (ab : Fin 16) (pi : Bool) (i : BitVec 11)
  | ldfe (d : Fin 32) (ab : Fin 16) (pi : Bool) (i : BitVec 11)
  | ste (d : Fin 32) (ab : Fin 16) (pi : Bool) (i : BitVec 11)
  | feemp (ab : Fin 16) (pi : Bool) (i : BitVec 11)
  | waita (d : Fin 32) (ab : Fin 16) (pi : Bool) (i : BitVec 11)
  | amadd (d : Fin 32) (a : Fin 16) (b : Fin 32) (w : Bool)
  | amand (d : Fin 32) (a : Fin 16) (b : Fin 32) (w : Bool)
  | amor (d : Fin 32) (a : Fin 16) (b : Fin 32) (w : Bool)
  | amxor (d : Fin 32) (a : Fin 16) (b : Fin 32) (w : Bool)
  | ammin (d : Fin 32) (a : Fin 16) (b : Fin 32) (w : Bool)
  | ammax (d : Fin 32) (a : Fin 16) (b : Fin 32) (w : Bool)
  | amswp (d : Fin 32) (a : Fin 16) (b : Fin 32) (w : Bool)
  | amcas (d : Fin 32) (a : Fin 16) (b : Fin 32) (w : Bool)
  | ldaqI32 (d : Fin 32) (ab : Fin 16) (sc : Scope) (i : BitVec 9)
  | ldaqI64 (d : Fin 32) (ab : Fin 16) (sc : Scope) (i : BitVec 9)
  | strlI32 (d : Fin 32) (ab : Fin 16) (sc : Scope) (i : BitVec 9)
  | strlI64 (d : Fin 32) (ab : Fin 16) (sc : Scope) (i : BitVec 9)
  | qmark
  | l1fl (sc : Scope)
  | l1inv (sc : Scope)
  | l1fll (ab : Fin 16) (i : BitVec 11)
  | l1invl (ab : Fin 16) (i : BitVec 11)
  | ldpf (ab : Fin 16) (i : BitVec 11)
  deriving DecidableEq, Repr

/-- Operations of the vector class, slots 3 and 4 (Table 2-7). -/
inductive VectorOp where
  | vnop
  | vadd (vd : Fin 32) (va vb : Fin 40) (t : Ty)
  | vsub (vd : Fin 32) (va vb : Fin 40) (t : Ty)
  | vmul (vd : Fin 32) (va vb : Fin 40) (t : Ty)
  | vmulh (vd : Fin 32) (va vb : Fin 40) (t : Ty)
  | vadds (vd : Fin 32) (va vb : Fin 40) (t : Ty)
  | vsubs (vd : Fin 32) (va vb : Fin 40) (t : Ty)
  | vmin (vd : Fin 32) (va vb : Fin 40) (t : Ty)
  | vmax (vd : Fin 32) (va vb : Fin 40) (t : Ty)
  | vabs (vd : Fin 32) (va : Fin 40) (t : Ty)
  | vneg (vd : Fin 32) (va : Fin 40) (t : Ty)
  | vand (vd : Fin 32) (va vb : Fin 40) (t : Ty)
  | vor (vd : Fin 32) (va vb : Fin 40) (t : Ty)
  | vxor (vd : Fin 32) (va vb : Fin 40) (t : Ty)
  | vnot (vd : Fin 32) (va : Fin 40) (t : Ty)
  | vshl (vd : Fin 32) (va vb : Fin 40) (t : Ty)
  | vshr (vd : Fin 32) (va vb : Fin 40) (t : Ty)
  | vsra (vd : Fin 32) (va vb : Fin 40) (t : Ty)
  | vavg (vd : Fin 32) (va vb : Fin 40) (t : Ty)
  | vabsd (vd : Fin 32) (va vb : Fin 40) (t : Ty)
  | vclz (vd : Fin 32) (va : Fin 40) (t : Ty)
  | vpopc (vd : Fin 32) (va : Fin 40) (t : Ty)
  | vmov (vd : Fin 32) (va : Fin 40) (t : Ty)
  | vrsum (vd : Fin 32) (va : Fin 40) (t : Ty)
  | vrmax (vd : Fin 32) (va : Fin 40) (t : Ty)
  | vrmin (vd : Fin 32) (va : Fin 40) (t : Ty)
  | vperm (vd : Fin 32) (va vb : Fin 40) (t : Ty)
  | vzip (vd : Fin 32) (va vb : Fin 40) (t : Ty)
  | vunzip (vd : Fin 32) (va vb : Fin 40) (t : Ty)
  | vmaxexp (va : Fin 40) (t : Ty)
  | vseedx (vd : Fin 32) (va : Fin 40) (t : Ty)
  | vseedc (vd : Fin 32) (va vb : Fin 40) (t : Ty)
  | vfma (vd : Fin 32) (va vb : Fin 40) (t : Ty) (vc : Fin 40) (rm : Rm)
  | vfms (vd : Fin 32) (va vb : Fin 40) (t : Ty) (vc : Fin 40) (rm : Rm)
  | vfnma (vd : Fin 32) (va vb : Fin 40) (t : Ty) (vc : Fin 40) (rm : Rm)
  | vfnms (vd : Fin 32) (va vb : Fin 40) (t : Ty) (vc : Fin 40) (rm : Rm)
  | vsel (vd : Fin 32) (va vb : Fin 40) (t : Ty) (ps : Fin 8)
  | vaddr (vd : Fin 32) (va vb : Fin 40) (t : Ty) (rm : Rm)
  | vmulr (vd : Fin 32) (va vb : Fin 40) (t : Ty) (rm : Rm)
  | vcvt (vd : Fin 32) (va : Fin 40) (ts td : Ty) (sc : BitVec 6) (rm : Rm) (part : Fin 8)
  | vaddi (vd : Fin 32) (va : Fin 40) (t : Ty) (imm : BitVec 32)
  | vmuli (vd : Fin 32) (va : Fin 40) (t : Ty) (imm : BitVec 32)
  | vandi (vd : Fin 32) (va : Fin 40) (t : Ty) (imm : BitVec 32)
  | vori (vd : Fin 32) (va : Fin 40) (t : Ty) (imm : BitVec 32)
  | vshli (vd : Fin 32) (va : Fin 40) (t : Ty) (imm : BitVec 32)
  | vshri (vd : Fin 32) (va : Fin 40) (t : Ty) (imm : BitVec 32)
  | vsrai (vd : Fin 32) (va : Fin 40) (t : Ty) (imm : BitVec 32)
  | vbcst (vd : Fin 32) (t : Ty) (imm : BitVec 32)
  | vcmpeq (pd : Fin 8) (va vb : Fin 40) (t : Ty)
  | vcmpne (pd : Fin 8) (va vb : Fin 40) (t : Ty)
  | vcmplt (pd : Fin 8) (va vb : Fin 40) (t : Ty)
  | vcmple (pd : Fin 8) (va vb : Fin 40) (t : Ty)
  | vcmpgt (pd : Fin 8) (va vb : Fin 40) (t : Ty)
  | vcmpge (pd : Fin 8) (va vb : Fin 40) (t : Ty)
  | vcmpun (pd : Fin 8) (va vb : Fin 40) (t : Ty)
  | vclass (pd : Fin 8) (va vb : Fin 40) (t : Ty)
  | vpand (pd pa pb : Fin 8)
  | vpor (pd pa pb : Fin 8)
  | vpxor (pd pa pb : Fin 8)
  | vpandn (pd pa pb : Fin 8)
  | vexp (vd : Fin 32) (va : Fin 40) (t : Ty)
  | vexp2 (vd : Fin 32) (va : Fin 40) (t : Ty)
  | vlog (vd : Fin 32) (va : Fin 40) (t : Ty)
  | vlog2 (vd : Fin 32) (va : Fin 40) (t : Ty)
  | vrcp (vd : Fin 32) (va : Fin 40) (t : Ty)
  | vrsq (vd : Fin 32) (va : Fin 40) (t : Ty)
  | vsqrt (vd : Fin 32) (va : Fin 40) (t : Ty)
  | vtanh (vd : Fin 32) (va : Fin 40) (t : Ty)
  | vsigm (vd : Fin 32) (va : Fin 40) (t : Ty)
  | vsilu (vd : Fin 32) (va : Fin 40) (t : Ty)
  | vgelu (vd : Fin 32) (va : Fin 40) (t : Ty)
  | vsin (vd : Fin 32) (va : Fin 40) (t : Ty)
  | vcos (vd : Fin 32) (va : Fin 40) (t : Ty)
  | verf (vd : Fin 32) (va : Fin 40) (t : Ty)
  | vtbld (h : Fin 16) (va vb : Fin 40)
  | vtwr (vd : Fin 32) (x : Fin 4) (k : Fin 16) (td ts : Ty) (rm : Rm)
  | vtrd (vd : Fin 32) (x : Fin 4) (k : Fin 16) (td ts : Ty) (rm : Rm)
  | vld (vd : Fin 32) (ab : Fin 16) (sp pi : Bool) (i : BitVec 10)
  | vst (vd : Fin 32) (ab : Fin 16) (sp pi : Bool) (i : BitVec 10)
  | vldb (vd : Fin 32) (ab : Fin 16) (sp pi : Bool) (i : BitVec 10)
  | vldnt (vd : Fin 32) (ab : Fin 16) (sp pi : Bool) (i : BitVec 10)
  | vstnt (vd : Fin 32) (ab : Fin 16) (sp pi : Bool) (i : BitVec 10)
  | vgath (vd : Fin 32) (ab : Fin 16) (sp : Bool) (vi : Fin 40) (es : Width)
  | vscat (vd : Fin 32) (ab : Fin 16) (sp : Bool) (vi : Fin 40) (es : Width)
  | vscata (vd : Fin 32) (ab : Fin 16) (sp : Bool) (vi : Fin 40) (es : Width)
  | vwiden (vd : Fin 32) (va : Fin 40) (t : Ty)
  | vnarrow (vd : Fin 32) (va vb : Fin 40) (t : Ty)
  | vpack (vd : Fin 32) (va vb : Fin 40) (t : Ty)
  | vunpack (vd : Fin 32) (va : Fin 40) (t : Ty)
  | vsumw (vd : Fin 32) (va vb : Fin 40) (t : Ty)
  | vdot2 (vd : Fin 32) (va vb : Fin 40) (t : Ty)
  | vscale (vd : Fin 32) (va vb : Fin 40) (t : Ty)
  | vround (vd : Fin 32) (va : Fin 40) (t : Ty)
  | vfloor (vd : Fin 32) (va : Fin 40) (t : Ty)
  | vslide (vd : Fin 32) (va vb : Fin 40) (t : Ty)
  | vrev (vd : Fin 32) (va : Fin 40) (t : Ty)
  deriving DecidableEq, Repr

/-- Operations of the matrix class, slot 5 (Table 2-8). -/
inductive MatrixOp where
  | mnop
  | mcbset (s : Fin 32) (sel : Fin 8)
  | mlut (ht hw : Fin 16) (row : Fin 64) (col : Fin 16) (sh : Fin 4) (clr : Bool)
  | mlutg (ht hw : Fin 16) (row : Fin 64) (col : Fin 16) (sh : Fin 4) (clr : Bool) (hp hs : Fin 16)
  | mluts (ht hw : Fin 16) (row : Fin 64) (col : Fin 16) (sh : Fin 4) (clr : Bool)
  | mlutsg (ht hw : Fin 16) (row : Fin 64) (col : Fin 16) (sh : Fin 4) (clr : Bool) (hp hs : Fin 16)
  | maclr (row : Fin 64) (col : Fin 16) (sh : Fin 4)
  | mmask (ht : Fin 16)
  | mstat (s : Fin 32) (n : Fin 8)
  | mcbget (s : Fin 32) (sel : Fin 8)
  | macrd (vd : Fin 32) (row : Fin 64) (col : Fin 16)
  | macwr (vd : Fin 32) (row : Fin 64) (col : Fin 16)
  | mbias (vd : Fin 32) (row : Fin 64) (col : Fin 16)
  | mreset
  | mlutk (ht hw : Fin 16) (row : Fin 64) (col : Fin 16) (sh : Fin 4) (clr : Bool)
  | mlutgk (ht hw : Fin 16) (row : Fin 64) (col : Fin 16) (sh : Fin 4) (clr : Bool) (hp hs : Fin 16)
  deriving DecidableEq, Repr

/-- Operations of the copy class, slots 6 and 7 (Table 2-8). -/
inductive CopyOp where
  | ynop
  | ycopy (ab : Fin 16) (pi lock : Bool) (sc : Scope)
  | ypush (ab : Fin 16) (pi lock : Bool) (sc : Scope)
  | yacc (ab : Fin 16) (pi lock : Bool) (sc : Scope)
  | yaccp (ab : Fin 16) (pi lock : Bool) (sc : Scope)
  | ymx4 (ab : Fin 16) (pi lock : Bool) (sc : Scope)
  | ysadd (ab : Fin 16) (pi lock : Bool) (sc : Scope)
  | yatom (ab : Fin 16) (pi lock : Bool) (sc : Scope)
  | ypref (ab : Fin 16) (pi lock : Bool) (sc : Scope)
  | yfill (ab : Fin 16) (pi lock : Bool) (sc : Scope)
  | yrem (ab : Fin 16) (pi lock : Bool) (sc : Scope)
  | ygath (ab : Fin 16) (pi lock : Bool) (sc : Scope)
  | yscat (ab : Fin 16) (pi lock : Bool) (sc : Scope)
  | yline (ab : Fin 16) (pi lock : Bool) (sc : Scope)
  | ycancel
  | yldv (ab : Fin 16) (pi : Bool) (vd : Fin 32)
  deriving DecidableEq, Repr

/-- An operation of one of the six classes; `u` picks the higher slot of a pair. -/
inductive Op where
  | c (o : ControlOp)
  | s (o : ScalarOp)
  | a (o : AddressOp)
  | v (u : Bool) (o : VectorOp)
  | m (o : MatrixOp)
  | y (u : Bool) (o : CopyOp)
  deriving DecidableEq, Repr

/-- One slot of a bundle: guard and operation. -/
structure Slot where
  g : Guard
  op : Op
  deriving DecidableEq, Repr

/-- The guard of a word that writes none: always true. -/
def Guard.always : Guard := ⟨false, 0⟩

/-- The six slot classes (01_bundles.md Table 1-1). -/
inductive Cls where
  | C | S | A | V | M | Y
  deriving DecidableEq, Repr

/-- Class of a slot (Table 1-1). -/
def clsOf (k : Fin 8) : Cls :=
  match k.val with
  | 0 => .C | 1 => .S | 2 => .A | 3 => .V | 4 => .V | 5 => .M | _ => .Y

/-- The slot an operation goes to (Table 1-1). -/
def Op.slot : Op → Fin 8
  | .c _ => 0 | .s _ => 1 | .a _ => 2 | .v false _ => 3 | .v true _ => 4 | .m _ => 5 | .y false _ => 6 | .y true _ => 7

/-- The instruction of a control operation under a guard. The compiler of Lean 4.33 has no tags for so many constructors; the kernel
evaluates it. -/
noncomputable def ControlOp.instr (g : Guard) : ControlOp → Instr
  | .cnop => .cnop
  | .br bt => .br g bt
  | .brp bt neg ps => .brp g bt neg ps
  | .brlc bt lc => .brlc g bt lc
  | .brl bt bl => .brl g bt bl
  | .brx a => .brx g a
  | .halt => .halt g
  | .delay n => .delay g n
  | .pbr bd i => .pbr g bd i
  | .pbrs d a => .pbrs g d a
  | .bget d a => .bget g d a
  | .btok d e => .btok g d e
  | .lcset d n => .lcset g d n
  | .lcsets d a => .lcsets g d a
  | .lcget d a => .lcget g d a
  | .skset d n => .skset g d n
  | .sksets d a => .sksets g d a
  | .skget d a => .skget g d a
  | .shape d a b => .shape g d a b
  | .shapex d a imm => .shapex g d a imm
  | .shget d a => .shget g d a
  | .fdset d a => .fdset g d a
  | .fdget d a => .fdget g d a
  | .hinit d a => .hinit g d a
  | .hwait d n => .hwait g d n
  | .hres d n => .hres g d n
  | .hadv d n => .hadv g d n
  | .hcommit d a => .hcommit g d a
  | .hget d a => .hget g d a
  | .hstat d a => .hstat g d a
  | .qfence m => .qfence g m
  | .barinit a n => .barinit g a n
  | .bararv sc n => .bararv g sc n
  | .barwait sc n => .barwait g sc n
  | .barrem a sc => .barrem g a sc
  | .gjoin a => .gjoin g a
  | .gleave a => .gleave g a
  | .lpatch a b k => .lpatch g a b k
  | .larm d a => .larm g d a
  | .lwait a => .lwait g a
  | .trap n => .trap g n
  | .rft => .rft g
  | .brk n => .brk g n
  | .csrrd d n => .csrrd g d n
  | .csrwr a n => .csrwr g a n
  | .csrset a n => .csrset g a n
  | .csrclr a n => .csrclr g a n
  | .scall n => .scall g n
  | .sret => .sret g
  | .wfi => .wfi g
  | .tbwait d a => .tbwait g d a

/-- The instruction of a scalar operation under a guard. The compiler of Lean 4.33 has no tags for so many constructors; the kernel
evaluates it. -/
noncomputable def ScalarOp.instr (g : Guard) : ScalarOp → Instr
  | .snop => .snop
  | .add d a b => .add g d a b
  | .sub d a b => .sub g d a b
  | .mul d a b => .mul g d a b
  | .mulh d a b => .mulh g d a b
  | .mulhu d a b => .mulhu g d a b
  | .and d a b => .and g d a b
  | .or d a b => .or g d a b
  | .xor d a b => .xor g d a b
  | .andn d a b => .andn g d a b
  | .orn d a b => .orn g d a b
  | .shl d a b => .shl g d a b
  | .shr d a b => .shr g d a b
  | .sra d a b => .sra g d a b
  | .rol d a b => .rol g d a b
  | .min d a b => .min g d a b
  | .max d a b => .max g d a b
  | .minu d a b => .minu g d a b
  | .maxu d a b => .maxu g d a b
  | .slt d a b => .slt g d a b
  | .sltu d a b => .sltu g d a b
  | .seq d a b => .seq g d a b
  | .sne d a b => .sne g d a b
  | .clz d a => .clz g d a
  | .mov d a => .mov g d a
  | .ctz d a => .ctz g d a
  | .popc d a => .popc g d a
  | .sext d a w => .sext g d a w
  | .zext d a w => .zext g d a w
  | .addi d a i => .addi g d a i
  | .muli d a i => .muli g d a i
  | .andi d a i => .andi g d a i
  | .ori d a i => .ori g d a i
  | .xori d a i => .xori g d a i
  | .shli d a i => .shli g d a i
  | .shri d a i => .shri g d a i
  | .srai d a i => .srai g d a i
  | .roli d a i => .roli g d a i
  | .slti d a i => .slti g d a i
  | .sltui d a i => .sltui g d a i
  | .seqi d a i => .seqi g d a i
  | .mini d a i => .mini g d a i
  | .maxi d a i => .maxi g d a i
  | .li d imm => .li g d imm
  | .lih d imm => .lih g d imm
  | .addx d a imm => .addx g d a imm
  | .andx d a imm => .andx g d a imm
  | .orx d a imm => .orx g d a imm
  | .xorx d a imm => .xorx g d a imm
  | .spset d a => .spset g d a
  | .spany d a => .spany g d a
  | .spall d a => .spall g d a
  | .spcnt d a => .spcnt g d a
  | .scyc d => .scyc g d
  | .svl d => .svl g d
  | .bswap d a => .bswap g d a

/-- The instruction of a address operation under a guard. The compiler of Lean 4.33 has no tags for so many constructors; the kernel
evaluates it. -/
noncomputable def AddressOp.instr (g : Guard) : AddressOp → Instr
  | .anop => .anop
  | .aadd d a b => .aadd g d a b
  | .asub d a b => .asub g d a b
  | .aadda d a b => .aadda g d a b
  | .amov d a => .amov g d a
  | .asets d a => .asets g d a
  | .agets d a => .agets g d a
  | .aaddi d a i => .aaddi g d a i
  | .ali d imm => .ali g d imm
  | .alih d imm => .alih g d imm
  | .aaddx d a imm => .aaddx g d a imm
  | .ldspI8 d ab pi i => .ldspI8 g d ab pi i
  | .ldspI16 d ab pi i => .ldspI16 g d ab pi i
  | .ldspI32 d ab pi i => .ldspI32 g d ab pi i
  | .ldspI64 d ab pi i => .ldspI64 g d ab pi i
  | .ldspUi8 d ab pi i => .ldspUi8 g d ab pi i
  | .ldspUi16 d ab pi i => .ldspUi16 g d ab pi i
  | .ldspUi32 d ab pi i => .ldspUi32 g d ab pi i
  | .stspI8 d ab pi i => .stspI8 g d ab pi i
  | .stspI16 d ab pi i => .stspI16 g d ab pi i
  | .stspI32 d ab pi i => .stspI32 g d ab pi i
  | .stspI64 d ab pi i => .stspI64 g d ab pi i
  | .ldgI8 d ab pi i => .ldgI8 g d ab pi i
  | .ldgI16 d ab pi i => .ldgI16 g d ab pi i
  | .ldgI32 d ab pi i => .ldgI32 g d ab pi i
  | .ldgI64 d ab pi i => .ldgI64 g d ab pi i
  | .ldgUi8 d ab pi i => .ldgUi8 g d ab pi i
  | .ldgUi16 d ab pi i => .ldgUi16 g d ab pi i
  | .ldgUi32 d ab pi i => .ldgUi32 g d ab pi i
  | .stgI8 d ab pi i => .stgI8 g d ab pi i
  | .stgI16 d ab pi i => .stgI16 g d ab pi i
  | .stgI32 d ab pi i => .stgI32 g d ab pi i
  | .stgI64 d ab pi i => .stgI64 g d ab pi i
  | .ldf d ab pi i => .ldf g d ab pi i
  | .ldfe d ab pi i => .ldfe g d ab pi i
  | .ste d ab pi i => .ste g d ab pi i
  | .feemp ab pi i => .feemp g ab pi i
  | .waita d ab pi i => .waita g d ab pi i
  | .amadd d a b w => .amadd g d a b w
  | .amand d a b w => .amand g d a b w
  | .amor d a b w => .amor g d a b w
  | .amxor d a b w => .amxor g d a b w
  | .ammin d a b w => .ammin g d a b w
  | .ammax d a b w => .ammax g d a b w
  | .amswp d a b w => .amswp g d a b w
  | .amcas d a b w => .amcas g d a b w
  | .ldaqI32 d ab sc i => .ldaqI32 g d ab sc i
  | .ldaqI64 d ab sc i => .ldaqI64 g d ab sc i
  | .strlI32 d ab sc i => .strlI32 g d ab sc i
  | .strlI64 d ab sc i => .strlI64 g d ab sc i
  | .qmark => .qmark g
  | .l1fl sc => .l1fl g sc
  | .l1inv sc => .l1inv g sc
  | .l1fll ab i => .l1fll g ab i
  | .l1invl ab i => .l1invl g ab i
  | .ldpf ab i => .ldpf g ab i

/-- The instruction of a vector operation under a guard. The compiler of Lean 4.33 has no tags for so many constructors; the kernel
evaluates it. -/
noncomputable def VectorOp.instr (g : Guard) (u : Bool) : VectorOp → Instr
  | .vnop => .vnop u
  | .vadd vd va vb t => .vadd g u vd va vb t
  | .vsub vd va vb t => .vsub g u vd va vb t
  | .vmul vd va vb t => .vmul g u vd va vb t
  | .vmulh vd va vb t => .vmulh g u vd va vb t
  | .vadds vd va vb t => .vadds g u vd va vb t
  | .vsubs vd va vb t => .vsubs g u vd va vb t
  | .vmin vd va vb t => .vmin g u vd va vb t
  | .vmax vd va vb t => .vmax g u vd va vb t
  | .vabs vd va t => .vabs g u vd va t
  | .vneg vd va t => .vneg g u vd va t
  | .vand vd va vb t => .vand g u vd va vb t
  | .vor vd va vb t => .vor g u vd va vb t
  | .vxor vd va vb t => .vxor g u vd va vb t
  | .vnot vd va t => .vnot g u vd va t
  | .vshl vd va vb t => .vshl g u vd va vb t
  | .vshr vd va vb t => .vshr g u vd va vb t
  | .vsra vd va vb t => .vsra g u vd va vb t
  | .vavg vd va vb t => .vavg g u vd va vb t
  | .vabsd vd va vb t => .vabsd g u vd va vb t
  | .vclz vd va t => .vclz g u vd va t
  | .vpopc vd va t => .vpopc g u vd va t
  | .vmov vd va t => .vmov g u vd va t
  | .vrsum vd va t => .vrsum g u vd va t
  | .vrmax vd va t => .vrmax g u vd va t
  | .vrmin vd va t => .vrmin g u vd va t
  | .vperm vd va vb t => .vperm g u vd va vb t
  | .vzip vd va vb t => .vzip g u vd va vb t
  | .vunzip vd va vb t => .vunzip g u vd va vb t
  | .vmaxexp va t => .vmaxexp g u va t
  | .vseedx vd va t => .vseedx g u vd va t
  | .vseedc vd va vb t => .vseedc g u vd va vb t
  | .vfma vd va vb t vc rm => .vfma g u vd va vb t vc rm
  | .vfms vd va vb t vc rm => .vfms g u vd va vb t vc rm
  | .vfnma vd va vb t vc rm => .vfnma g u vd va vb t vc rm
  | .vfnms vd va vb t vc rm => .vfnms g u vd va vb t vc rm
  | .vsel vd va vb t ps => .vsel g u vd va vb t ps
  | .vaddr vd va vb t rm => .vaddr g u vd va vb t rm
  | .vmulr vd va vb t rm => .vmulr g u vd va vb t rm
  | .vcvt vd va ts td sc rm part => .vcvt g u vd va ts td sc rm part
  | .vaddi vd va t imm => .vaddi g u vd va t imm
  | .vmuli vd va t imm => .vmuli g u vd va t imm
  | .vandi vd va t imm => .vandi g u vd va t imm
  | .vori vd va t imm => .vori g u vd va t imm
  | .vshli vd va t imm => .vshli g u vd va t imm
  | .vshri vd va t imm => .vshri g u vd va t imm
  | .vsrai vd va t imm => .vsrai g u vd va t imm
  | .vbcst vd t imm => .vbcst g u vd t imm
  | .vcmpeq pd va vb t => .vcmpeq g u pd va vb t
  | .vcmpne pd va vb t => .vcmpne g u pd va vb t
  | .vcmplt pd va vb t => .vcmplt g u pd va vb t
  | .vcmple pd va vb t => .vcmple g u pd va vb t
  | .vcmpgt pd va vb t => .vcmpgt g u pd va vb t
  | .vcmpge pd va vb t => .vcmpge g u pd va vb t
  | .vcmpun pd va vb t => .vcmpun g u pd va vb t
  | .vclass pd va vb t => .vclass g u pd va vb t
  | .vpand pd pa pb => .vpand g u pd pa pb
  | .vpor pd pa pb => .vpor g u pd pa pb
  | .vpxor pd pa pb => .vpxor g u pd pa pb
  | .vpandn pd pa pb => .vpandn g u pd pa pb
  | .vexp vd va t => .vexp g u vd va t
  | .vexp2 vd va t => .vexp2 g u vd va t
  | .vlog vd va t => .vlog g u vd va t
  | .vlog2 vd va t => .vlog2 g u vd va t
  | .vrcp vd va t => .vrcp g u vd va t
  | .vrsq vd va t => .vrsq g u vd va t
  | .vsqrt vd va t => .vsqrt g u vd va t
  | .vtanh vd va t => .vtanh g u vd va t
  | .vsigm vd va t => .vsigm g u vd va t
  | .vsilu vd va t => .vsilu g u vd va t
  | .vgelu vd va t => .vgelu g u vd va t
  | .vsin vd va t => .vsin g u vd va t
  | .vcos vd va t => .vcos g u vd va t
  | .verf vd va t => .verf g u vd va t
  | .vtbld h va vb => .vtbld g u h va vb
  | .vtwr vd x k td ts rm => .vtwr g u vd x k td ts rm
  | .vtrd vd x k td ts rm => .vtrd g u vd x k td ts rm
  | .vld vd ab sp pi i => .vld g u vd ab sp pi i
  | .vst vd ab sp pi i => .vst g u vd ab sp pi i
  | .vldb vd ab sp pi i => .vldb g u vd ab sp pi i
  | .vldnt vd ab sp pi i => .vldnt g u vd ab sp pi i
  | .vstnt vd ab sp pi i => .vstnt g u vd ab sp pi i
  | .vgath vd ab sp vi es => .vgath g u vd ab sp vi es
  | .vscat vd ab sp vi es => .vscat g u vd ab sp vi es
  | .vscata vd ab sp vi es => .vscata g u vd ab sp vi es
  | .vwiden vd va t => .vwiden g u vd va t
  | .vnarrow vd va vb t => .vnarrow g u vd va vb t
  | .vpack vd va vb t => .vpack g u vd va vb t
  | .vunpack vd va t => .vunpack g u vd va t
  | .vsumw vd va vb t => .vsumw g u vd va vb t
  | .vdot2 vd va vb t => .vdot2 g u vd va vb t
  | .vscale vd va vb t => .vscale g u vd va vb t
  | .vround vd va t => .vround g u vd va t
  | .vfloor vd va t => .vfloor g u vd va t
  | .vslide vd va vb t => .vslide g u vd va vb t
  | .vrev vd va t => .vrev g u vd va t

/-- The instruction of a matrix operation under a guard. The compiler of Lean 4.33 has no tags for so many constructors; the kernel
evaluates it. -/
noncomputable def MatrixOp.instr (g : Guard) : MatrixOp → Instr
  | .mnop => .mnop
  | .mcbset s sel => .mcbset g s sel
  | .mlut ht hw row col sh clr => .mlut g ht hw row col sh clr
  | .mlutg ht hw row col sh clr hp hs => .mlutg g ht hw row col sh clr hp hs
  | .mluts ht hw row col sh clr => .mluts g ht hw row col sh clr
  | .mlutsg ht hw row col sh clr hp hs => .mlutsg g ht hw row col sh clr hp hs
  | .maclr row col sh => .maclr g row col sh
  | .mmask ht => .mmask g ht
  | .mstat s n => .mstat g s n
  | .mcbget s sel => .mcbget g s sel
  | .macrd vd row col => .macrd g vd row col
  | .macwr vd row col => .macwr g vd row col
  | .mbias vd row col => .mbias g vd row col
  | .mreset => .mreset g
  | .mlutk ht hw row col sh clr => .mlutk g ht hw row col sh clr
  | .mlutgk ht hw row col sh clr hp hs => .mlutgk g ht hw row col sh clr hp hs

/-- The instruction of a copy operation under a guard. The compiler of Lean 4.33 has no tags for so many constructors; the kernel
evaluates it. -/
noncomputable def CopyOp.instr (g : Guard) (u : Bool) : CopyOp → Instr
  | .ynop => .ynop u
  | .ycopy ab pi lock sc => .ycopy g u ab pi lock sc
  | .ypush ab pi lock sc => .ypush g u ab pi lock sc
  | .yacc ab pi lock sc => .yacc g u ab pi lock sc
  | .yaccp ab pi lock sc => .yaccp g u ab pi lock sc
  | .ymx4 ab pi lock sc => .ymx4 g u ab pi lock sc
  | .ysadd ab pi lock sc => .ysadd g u ab pi lock sc
  | .yatom ab pi lock sc => .yatom g u ab pi lock sc
  | .ypref ab pi lock sc => .ypref g u ab pi lock sc
  | .yfill ab pi lock sc => .yfill g u ab pi lock sc
  | .yrem ab pi lock sc => .yrem g u ab pi lock sc
  | .ygath ab pi lock sc => .ygath g u ab pi lock sc
  | .yscat ab pi lock sc => .yscat g u ab pi lock sc
  | .yline ab pi lock sc => .yline g u ab pi lock sc
  | .ycancel => .ycancel g u
  | .yldv ab pi vd => .yldv g u ab pi vd

/-- The instruction that a slot of a bundle is. -/
noncomputable def Slot.instr (x : Slot) : Instr :=
  match x.op with
  | .c o => o.instr x.g
  | .s o => o.instr x.g
  | .a o => o.instr x.g
  | .v u o => o.instr x.g u
  | .m o => o.instr x.g
  | .y u o => o.instr x.g u

/-- The slot of an instruction; none for a step of another agent. -/
def Instr.slot : Instr → Option Slot
  | .cnop => some ⟨.always, .c .cnop⟩
  | .snop => some ⟨.always, .s .snop⟩
  | .anop => some ⟨.always, .a .anop⟩
  | .vnop u => some ⟨.always, .v u .vnop⟩
  | .mnop => some ⟨.always, .m .mnop⟩
  | .ynop u => some ⟨.always, .y u .ynop⟩
  | .br g bt => some ⟨g, .c (.br bt)⟩
  | .brp g bt neg ps => some ⟨g, .c (.brp bt neg ps)⟩
  | .brlc g bt lc => some ⟨g, .c (.brlc bt lc)⟩
  | .brl g bt bl => some ⟨g, .c (.brl bt bl)⟩
  | .brx g a => some ⟨g, .c (.brx a)⟩
  | .halt g => some ⟨g, .c .halt⟩
  | .delay g n => some ⟨g, .c (.delay n)⟩
  | .pbr g bd i => some ⟨g, .c (.pbr bd i)⟩
  | .pbrs g d a => some ⟨g, .c (.pbrs d a)⟩
  | .bget g d a => some ⟨g, .c (.bget d a)⟩
  | .btok g d e => some ⟨g, .c (.btok d e)⟩
  | .lcset g d n => some ⟨g, .c (.lcset d n)⟩
  | .lcsets g d a => some ⟨g, .c (.lcsets d a)⟩
  | .lcget g d a => some ⟨g, .c (.lcget d a)⟩
  | .skset g d n => some ⟨g, .c (.skset d n)⟩
  | .sksets g d a => some ⟨g, .c (.sksets d a)⟩
  | .skget g d a => some ⟨g, .c (.skget d a)⟩
  | .shape g d a b => some ⟨g, .c (.shape d a b)⟩
  | .shapex g d a imm => some ⟨g, .c (.shapex d a imm)⟩
  | .shget g d a => some ⟨g, .c (.shget d a)⟩
  | .fdset g d a => some ⟨g, .c (.fdset d a)⟩
  | .fdget g d a => some ⟨g, .c (.fdget d a)⟩
  | .hinit g d a => some ⟨g, .c (.hinit d a)⟩
  | .hwait g d n => some ⟨g, .c (.hwait d n)⟩
  | .hres g d n => some ⟨g, .c (.hres d n)⟩
  | .hadv g d n => some ⟨g, .c (.hadv d n)⟩
  | .hcommit g d a => some ⟨g, .c (.hcommit d a)⟩
  | .hget g d a => some ⟨g, .c (.hget d a)⟩
  | .hstat g d a => some ⟨g, .c (.hstat d a)⟩
  | .qfence g m => some ⟨g, .c (.qfence m)⟩
  | .barinit g a n => some ⟨g, .c (.barinit a n)⟩
  | .bararv g sc n => some ⟨g, .c (.bararv sc n)⟩
  | .barwait g sc n => some ⟨g, .c (.barwait sc n)⟩
  | .barrem g a sc => some ⟨g, .c (.barrem a sc)⟩
  | .gjoin g a => some ⟨g, .c (.gjoin a)⟩
  | .gleave g a => some ⟨g, .c (.gleave a)⟩
  | .lpatch g a b k => some ⟨g, .c (.lpatch a b k)⟩
  | .larm g d a => some ⟨g, .c (.larm d a)⟩
  | .lwait g a => some ⟨g, .c (.lwait a)⟩
  | .trap g n => some ⟨g, .c (.trap n)⟩
  | .rft g => some ⟨g, .c .rft⟩
  | .brk g n => some ⟨g, .c (.brk n)⟩
  | .csrrd g d n => some ⟨g, .c (.csrrd d n)⟩
  | .csrwr g a n => some ⟨g, .c (.csrwr a n)⟩
  | .csrset g a n => some ⟨g, .c (.csrset a n)⟩
  | .csrclr g a n => some ⟨g, .c (.csrclr a n)⟩
  | .scall g n => some ⟨g, .c (.scall n)⟩
  | .sret g => some ⟨g, .c .sret⟩
  | .wfi g => some ⟨g, .c .wfi⟩
  | .tbwait g d a => some ⟨g, .c (.tbwait d a)⟩
  | .add g d a b => some ⟨g, .s (.add d a b)⟩
  | .sub g d a b => some ⟨g, .s (.sub d a b)⟩
  | .mul g d a b => some ⟨g, .s (.mul d a b)⟩
  | .mulh g d a b => some ⟨g, .s (.mulh d a b)⟩
  | .mulhu g d a b => some ⟨g, .s (.mulhu d a b)⟩
  | .and g d a b => some ⟨g, .s (.and d a b)⟩
  | .or g d a b => some ⟨g, .s (.or d a b)⟩
  | .xor g d a b => some ⟨g, .s (.xor d a b)⟩
  | .andn g d a b => some ⟨g, .s (.andn d a b)⟩
  | .orn g d a b => some ⟨g, .s (.orn d a b)⟩
  | .shl g d a b => some ⟨g, .s (.shl d a b)⟩
  | .shr g d a b => some ⟨g, .s (.shr d a b)⟩
  | .sra g d a b => some ⟨g, .s (.sra d a b)⟩
  | .rol g d a b => some ⟨g, .s (.rol d a b)⟩
  | .min g d a b => some ⟨g, .s (.min d a b)⟩
  | .max g d a b => some ⟨g, .s (.max d a b)⟩
  | .minu g d a b => some ⟨g, .s (.minu d a b)⟩
  | .maxu g d a b => some ⟨g, .s (.maxu d a b)⟩
  | .slt g d a b => some ⟨g, .s (.slt d a b)⟩
  | .sltu g d a b => some ⟨g, .s (.sltu d a b)⟩
  | .seq g d a b => some ⟨g, .s (.seq d a b)⟩
  | .sne g d a b => some ⟨g, .s (.sne d a b)⟩
  | .clz g d a => some ⟨g, .s (.clz d a)⟩
  | .mov g d a => some ⟨g, .s (.mov d a)⟩
  | .ctz g d a => some ⟨g, .s (.ctz d a)⟩
  | .popc g d a => some ⟨g, .s (.popc d a)⟩
  | .sext g d a w => some ⟨g, .s (.sext d a w)⟩
  | .zext g d a w => some ⟨g, .s (.zext d a w)⟩
  | .addi g d a i => some ⟨g, .s (.addi d a i)⟩
  | .muli g d a i => some ⟨g, .s (.muli d a i)⟩
  | .andi g d a i => some ⟨g, .s (.andi d a i)⟩
  | .ori g d a i => some ⟨g, .s (.ori d a i)⟩
  | .xori g d a i => some ⟨g, .s (.xori d a i)⟩
  | .shli g d a i => some ⟨g, .s (.shli d a i)⟩
  | .shri g d a i => some ⟨g, .s (.shri d a i)⟩
  | .srai g d a i => some ⟨g, .s (.srai d a i)⟩
  | .roli g d a i => some ⟨g, .s (.roli d a i)⟩
  | .slti g d a i => some ⟨g, .s (.slti d a i)⟩
  | .sltui g d a i => some ⟨g, .s (.sltui d a i)⟩
  | .seqi g d a i => some ⟨g, .s (.seqi d a i)⟩
  | .mini g d a i => some ⟨g, .s (.mini d a i)⟩
  | .maxi g d a i => some ⟨g, .s (.maxi d a i)⟩
  | .li g d imm => some ⟨g, .s (.li d imm)⟩
  | .lih g d imm => some ⟨g, .s (.lih d imm)⟩
  | .addx g d a imm => some ⟨g, .s (.addx d a imm)⟩
  | .andx g d a imm => some ⟨g, .s (.andx d a imm)⟩
  | .orx g d a imm => some ⟨g, .s (.orx d a imm)⟩
  | .xorx g d a imm => some ⟨g, .s (.xorx d a imm)⟩
  | .spset g d a => some ⟨g, .s (.spset d a)⟩
  | .spany g d a => some ⟨g, .s (.spany d a)⟩
  | .spall g d a => some ⟨g, .s (.spall d a)⟩
  | .spcnt g d a => some ⟨g, .s (.spcnt d a)⟩
  | .scyc g d => some ⟨g, .s (.scyc d)⟩
  | .svl g d => some ⟨g, .s (.svl d)⟩
  | .bswap g d a => some ⟨g, .s (.bswap d a)⟩
  | .aadd g d a b => some ⟨g, .a (.aadd d a b)⟩
  | .asub g d a b => some ⟨g, .a (.asub d a b)⟩
  | .aadda g d a b => some ⟨g, .a (.aadda d a b)⟩
  | .amov g d a => some ⟨g, .a (.amov d a)⟩
  | .asets g d a => some ⟨g, .a (.asets d a)⟩
  | .agets g d a => some ⟨g, .a (.agets d a)⟩
  | .aaddi g d a i => some ⟨g, .a (.aaddi d a i)⟩
  | .ali g d imm => some ⟨g, .a (.ali d imm)⟩
  | .alih g d imm => some ⟨g, .a (.alih d imm)⟩
  | .aaddx g d a imm => some ⟨g, .a (.aaddx d a imm)⟩
  | .ldspI8 g d ab pi i => some ⟨g, .a (.ldspI8 d ab pi i)⟩
  | .ldspI16 g d ab pi i => some ⟨g, .a (.ldspI16 d ab pi i)⟩
  | .ldspI32 g d ab pi i => some ⟨g, .a (.ldspI32 d ab pi i)⟩
  | .ldspI64 g d ab pi i => some ⟨g, .a (.ldspI64 d ab pi i)⟩
  | .ldspUi8 g d ab pi i => some ⟨g, .a (.ldspUi8 d ab pi i)⟩
  | .ldspUi16 g d ab pi i => some ⟨g, .a (.ldspUi16 d ab pi i)⟩
  | .ldspUi32 g d ab pi i => some ⟨g, .a (.ldspUi32 d ab pi i)⟩
  | .stspI8 g d ab pi i => some ⟨g, .a (.stspI8 d ab pi i)⟩
  | .stspI16 g d ab pi i => some ⟨g, .a (.stspI16 d ab pi i)⟩
  | .stspI32 g d ab pi i => some ⟨g, .a (.stspI32 d ab pi i)⟩
  | .stspI64 g d ab pi i => some ⟨g, .a (.stspI64 d ab pi i)⟩
  | .ldgI8 g d ab pi i => some ⟨g, .a (.ldgI8 d ab pi i)⟩
  | .ldgI16 g d ab pi i => some ⟨g, .a (.ldgI16 d ab pi i)⟩
  | .ldgI32 g d ab pi i => some ⟨g, .a (.ldgI32 d ab pi i)⟩
  | .ldgI64 g d ab pi i => some ⟨g, .a (.ldgI64 d ab pi i)⟩
  | .ldgUi8 g d ab pi i => some ⟨g, .a (.ldgUi8 d ab pi i)⟩
  | .ldgUi16 g d ab pi i => some ⟨g, .a (.ldgUi16 d ab pi i)⟩
  | .ldgUi32 g d ab pi i => some ⟨g, .a (.ldgUi32 d ab pi i)⟩
  | .stgI8 g d ab pi i => some ⟨g, .a (.stgI8 d ab pi i)⟩
  | .stgI16 g d ab pi i => some ⟨g, .a (.stgI16 d ab pi i)⟩
  | .stgI32 g d ab pi i => some ⟨g, .a (.stgI32 d ab pi i)⟩
  | .stgI64 g d ab pi i => some ⟨g, .a (.stgI64 d ab pi i)⟩
  | .ldf g d ab pi i => some ⟨g, .a (.ldf d ab pi i)⟩
  | .ldfe g d ab pi i => some ⟨g, .a (.ldfe d ab pi i)⟩
  | .ste g d ab pi i => some ⟨g, .a (.ste d ab pi i)⟩
  | .feemp g ab pi i => some ⟨g, .a (.feemp ab pi i)⟩
  | .waita g d ab pi i => some ⟨g, .a (.waita d ab pi i)⟩
  | .amadd g d a b w => some ⟨g, .a (.amadd d a b w)⟩
  | .amand g d a b w => some ⟨g, .a (.amand d a b w)⟩
  | .amor g d a b w => some ⟨g, .a (.amor d a b w)⟩
  | .amxor g d a b w => some ⟨g, .a (.amxor d a b w)⟩
  | .ammin g d a b w => some ⟨g, .a (.ammin d a b w)⟩
  | .ammax g d a b w => some ⟨g, .a (.ammax d a b w)⟩
  | .amswp g d a b w => some ⟨g, .a (.amswp d a b w)⟩
  | .amcas g d a b w => some ⟨g, .a (.amcas d a b w)⟩
  | .ldaqI32 g d ab sc i => some ⟨g, .a (.ldaqI32 d ab sc i)⟩
  | .ldaqI64 g d ab sc i => some ⟨g, .a (.ldaqI64 d ab sc i)⟩
  | .strlI32 g d ab sc i => some ⟨g, .a (.strlI32 d ab sc i)⟩
  | .strlI64 g d ab sc i => some ⟨g, .a (.strlI64 d ab sc i)⟩
  | .qmark g => some ⟨g, .a .qmark⟩
  | .l1fl g sc => some ⟨g, .a (.l1fl sc)⟩
  | .l1inv g sc => some ⟨g, .a (.l1inv sc)⟩
  | .l1fll g ab i => some ⟨g, .a (.l1fll ab i)⟩
  | .l1invl g ab i => some ⟨g, .a (.l1invl ab i)⟩
  | .ldpf g ab i => some ⟨g, .a (.ldpf ab i)⟩
  | .vadd g u vd va vb t => some ⟨g, .v u (.vadd vd va vb t)⟩
  | .vsub g u vd va vb t => some ⟨g, .v u (.vsub vd va vb t)⟩
  | .vmul g u vd va vb t => some ⟨g, .v u (.vmul vd va vb t)⟩
  | .vmulh g u vd va vb t => some ⟨g, .v u (.vmulh vd va vb t)⟩
  | .vadds g u vd va vb t => some ⟨g, .v u (.vadds vd va vb t)⟩
  | .vsubs g u vd va vb t => some ⟨g, .v u (.vsubs vd va vb t)⟩
  | .vmin g u vd va vb t => some ⟨g, .v u (.vmin vd va vb t)⟩
  | .vmax g u vd va vb t => some ⟨g, .v u (.vmax vd va vb t)⟩
  | .vabs g u vd va t => some ⟨g, .v u (.vabs vd va t)⟩
  | .vneg g u vd va t => some ⟨g, .v u (.vneg vd va t)⟩
  | .vand g u vd va vb t => some ⟨g, .v u (.vand vd va vb t)⟩
  | .vor g u vd va vb t => some ⟨g, .v u (.vor vd va vb t)⟩
  | .vxor g u vd va vb t => some ⟨g, .v u (.vxor vd va vb t)⟩
  | .vnot g u vd va t => some ⟨g, .v u (.vnot vd va t)⟩
  | .vshl g u vd va vb t => some ⟨g, .v u (.vshl vd va vb t)⟩
  | .vshr g u vd va vb t => some ⟨g, .v u (.vshr vd va vb t)⟩
  | .vsra g u vd va vb t => some ⟨g, .v u (.vsra vd va vb t)⟩
  | .vavg g u vd va vb t => some ⟨g, .v u (.vavg vd va vb t)⟩
  | .vabsd g u vd va vb t => some ⟨g, .v u (.vabsd vd va vb t)⟩
  | .vclz g u vd va t => some ⟨g, .v u (.vclz vd va t)⟩
  | .vpopc g u vd va t => some ⟨g, .v u (.vpopc vd va t)⟩
  | .vmov g u vd va t => some ⟨g, .v u (.vmov vd va t)⟩
  | .vrsum g u vd va t => some ⟨g, .v u (.vrsum vd va t)⟩
  | .vrmax g u vd va t => some ⟨g, .v u (.vrmax vd va t)⟩
  | .vrmin g u vd va t => some ⟨g, .v u (.vrmin vd va t)⟩
  | .vperm g u vd va vb t => some ⟨g, .v u (.vperm vd va vb t)⟩
  | .vzip g u vd va vb t => some ⟨g, .v u (.vzip vd va vb t)⟩
  | .vunzip g u vd va vb t => some ⟨g, .v u (.vunzip vd va vb t)⟩
  | .vmaxexp g u va t => some ⟨g, .v u (.vmaxexp va t)⟩
  | .vseedx g u vd va t => some ⟨g, .v u (.vseedx vd va t)⟩
  | .vseedc g u vd va vb t => some ⟨g, .v u (.vseedc vd va vb t)⟩
  | .vfma g u vd va vb t vc rm => some ⟨g, .v u (.vfma vd va vb t vc rm)⟩
  | .vfms g u vd va vb t vc rm => some ⟨g, .v u (.vfms vd va vb t vc rm)⟩
  | .vfnma g u vd va vb t vc rm => some ⟨g, .v u (.vfnma vd va vb t vc rm)⟩
  | .vfnms g u vd va vb t vc rm => some ⟨g, .v u (.vfnms vd va vb t vc rm)⟩
  | .vsel g u vd va vb t ps => some ⟨g, .v u (.vsel vd va vb t ps)⟩
  | .vaddr g u vd va vb t rm => some ⟨g, .v u (.vaddr vd va vb t rm)⟩
  | .vmulr g u vd va vb t rm => some ⟨g, .v u (.vmulr vd va vb t rm)⟩
  | .vcvt g u vd va ts td sc rm part => some ⟨g, .v u (.vcvt vd va ts td sc rm part)⟩
  | .vaddi g u vd va t imm => some ⟨g, .v u (.vaddi vd va t imm)⟩
  | .vmuli g u vd va t imm => some ⟨g, .v u (.vmuli vd va t imm)⟩
  | .vandi g u vd va t imm => some ⟨g, .v u (.vandi vd va t imm)⟩
  | .vori g u vd va t imm => some ⟨g, .v u (.vori vd va t imm)⟩
  | .vshli g u vd va t imm => some ⟨g, .v u (.vshli vd va t imm)⟩
  | .vshri g u vd va t imm => some ⟨g, .v u (.vshri vd va t imm)⟩
  | .vsrai g u vd va t imm => some ⟨g, .v u (.vsrai vd va t imm)⟩
  | .vbcst g u vd t imm => some ⟨g, .v u (.vbcst vd t imm)⟩
  | .vcmpeq g u pd va vb t => some ⟨g, .v u (.vcmpeq pd va vb t)⟩
  | .vcmpne g u pd va vb t => some ⟨g, .v u (.vcmpne pd va vb t)⟩
  | .vcmplt g u pd va vb t => some ⟨g, .v u (.vcmplt pd va vb t)⟩
  | .vcmple g u pd va vb t => some ⟨g, .v u (.vcmple pd va vb t)⟩
  | .vcmpgt g u pd va vb t => some ⟨g, .v u (.vcmpgt pd va vb t)⟩
  | .vcmpge g u pd va vb t => some ⟨g, .v u (.vcmpge pd va vb t)⟩
  | .vcmpun g u pd va vb t => some ⟨g, .v u (.vcmpun pd va vb t)⟩
  | .vclass g u pd va vb t => some ⟨g, .v u (.vclass pd va vb t)⟩
  | .vpand g u pd pa pb => some ⟨g, .v u (.vpand pd pa pb)⟩
  | .vpor g u pd pa pb => some ⟨g, .v u (.vpor pd pa pb)⟩
  | .vpxor g u pd pa pb => some ⟨g, .v u (.vpxor pd pa pb)⟩
  | .vpandn g u pd pa pb => some ⟨g, .v u (.vpandn pd pa pb)⟩
  | .vexp g u vd va t => some ⟨g, .v u (.vexp vd va t)⟩
  | .vexp2 g u vd va t => some ⟨g, .v u (.vexp2 vd va t)⟩
  | .vlog g u vd va t => some ⟨g, .v u (.vlog vd va t)⟩
  | .vlog2 g u vd va t => some ⟨g, .v u (.vlog2 vd va t)⟩
  | .vrcp g u vd va t => some ⟨g, .v u (.vrcp vd va t)⟩
  | .vrsq g u vd va t => some ⟨g, .v u (.vrsq vd va t)⟩
  | .vsqrt g u vd va t => some ⟨g, .v u (.vsqrt vd va t)⟩
  | .vtanh g u vd va t => some ⟨g, .v u (.vtanh vd va t)⟩
  | .vsigm g u vd va t => some ⟨g, .v u (.vsigm vd va t)⟩
  | .vsilu g u vd va t => some ⟨g, .v u (.vsilu vd va t)⟩
  | .vgelu g u vd va t => some ⟨g, .v u (.vgelu vd va t)⟩
  | .vsin g u vd va t => some ⟨g, .v u (.vsin vd va t)⟩
  | .vcos g u vd va t => some ⟨g, .v u (.vcos vd va t)⟩
  | .verf g u vd va t => some ⟨g, .v u (.verf vd va t)⟩
  | .vtbld g u h va vb => some ⟨g, .v u (.vtbld h va vb)⟩
  | .vtwr g u vd x k td ts rm => some ⟨g, .v u (.vtwr vd x k td ts rm)⟩
  | .vtrd g u vd x k td ts rm => some ⟨g, .v u (.vtrd vd x k td ts rm)⟩
  | .vld g u vd ab sp pi i => some ⟨g, .v u (.vld vd ab sp pi i)⟩
  | .vst g u vd ab sp pi i => some ⟨g, .v u (.vst vd ab sp pi i)⟩
  | .vldb g u vd ab sp pi i => some ⟨g, .v u (.vldb vd ab sp pi i)⟩
  | .vldnt g u vd ab sp pi i => some ⟨g, .v u (.vldnt vd ab sp pi i)⟩
  | .vstnt g u vd ab sp pi i => some ⟨g, .v u (.vstnt vd ab sp pi i)⟩
  | .vgath g u vd ab sp vi es => some ⟨g, .v u (.vgath vd ab sp vi es)⟩
  | .vscat g u vd ab sp vi es => some ⟨g, .v u (.vscat vd ab sp vi es)⟩
  | .vscata g u vd ab sp vi es => some ⟨g, .v u (.vscata vd ab sp vi es)⟩
  | .vwiden g u vd va t => some ⟨g, .v u (.vwiden vd va t)⟩
  | .vnarrow g u vd va vb t => some ⟨g, .v u (.vnarrow vd va vb t)⟩
  | .vpack g u vd va vb t => some ⟨g, .v u (.vpack vd va vb t)⟩
  | .vunpack g u vd va t => some ⟨g, .v u (.vunpack vd va t)⟩
  | .vsumw g u vd va vb t => some ⟨g, .v u (.vsumw vd va vb t)⟩
  | .vdot2 g u vd va vb t => some ⟨g, .v u (.vdot2 vd va vb t)⟩
  | .vscale g u vd va vb t => some ⟨g, .v u (.vscale vd va vb t)⟩
  | .vround g u vd va t => some ⟨g, .v u (.vround vd va t)⟩
  | .vfloor g u vd va t => some ⟨g, .v u (.vfloor vd va t)⟩
  | .vslide g u vd va vb t => some ⟨g, .v u (.vslide vd va vb t)⟩
  | .vrev g u vd va t => some ⟨g, .v u (.vrev vd va t)⟩
  | .mcbset g s sel => some ⟨g, .m (.mcbset s sel)⟩
  | .mlut g ht hw row col sh clr => some ⟨g, .m (.mlut ht hw row col sh clr)⟩
  | .mlutg g ht hw row col sh clr hp hs => some ⟨g, .m (.mlutg ht hw row col sh clr hp hs)⟩
  | .mluts g ht hw row col sh clr => some ⟨g, .m (.mluts ht hw row col sh clr)⟩
  | .mlutsg g ht hw row col sh clr hp hs => some ⟨g, .m (.mlutsg ht hw row col sh clr hp hs)⟩
  | .maclr g row col sh => some ⟨g, .m (.maclr row col sh)⟩
  | .mmask g ht => some ⟨g, .m (.mmask ht)⟩
  | .mstat g s n => some ⟨g, .m (.mstat s n)⟩
  | .mcbget g s sel => some ⟨g, .m (.mcbget s sel)⟩
  | .macrd g vd row col => some ⟨g, .m (.macrd vd row col)⟩
  | .macwr g vd row col => some ⟨g, .m (.macwr vd row col)⟩
  | .mbias g vd row col => some ⟨g, .m (.mbias vd row col)⟩
  | .mreset g => some ⟨g, .m .mreset⟩
  | .mlutk g ht hw row col sh clr => some ⟨g, .m (.mlutk ht hw row col sh clr)⟩
  | .mlutgk g ht hw row col sh clr hp hs => some ⟨g, .m (.mlutgk ht hw row col sh clr hp hs)⟩
  | .ycopy g u ab pi lock sc => some ⟨g, .y u (.ycopy ab pi lock sc)⟩
  | .ypush g u ab pi lock sc => some ⟨g, .y u (.ypush ab pi lock sc)⟩
  | .yacc g u ab pi lock sc => some ⟨g, .y u (.yacc ab pi lock sc)⟩
  | .yaccp g u ab pi lock sc => some ⟨g, .y u (.yaccp ab pi lock sc)⟩
  | .ymx4 g u ab pi lock sc => some ⟨g, .y u (.ymx4 ab pi lock sc)⟩
  | .ysadd g u ab pi lock sc => some ⟨g, .y u (.ysadd ab pi lock sc)⟩
  | .yatom g u ab pi lock sc => some ⟨g, .y u (.yatom ab pi lock sc)⟩
  | .ypref g u ab pi lock sc => some ⟨g, .y u (.ypref ab pi lock sc)⟩
  | .yfill g u ab pi lock sc => some ⟨g, .y u (.yfill ab pi lock sc)⟩
  | .yrem g u ab pi lock sc => some ⟨g, .y u (.yrem ab pi lock sc)⟩
  | .ygath g u ab pi lock sc => some ⟨g, .y u (.ygath ab pi lock sc)⟩
  | .yscat g u ab pi lock sc => some ⟨g, .y u (.yscat ab pi lock sc)⟩
  | .yline g u ab pi lock sc => some ⟨g, .y u (.yline ab pi lock sc)⟩
  | .ycancel g u => some ⟨g, .y u .ycancel⟩
  | .yldv g u ab pi vd => some ⟨g, .y u (.yldv ab pi vd)⟩
  | .bundleIssue _ _ | .writeLanding _ _ | .interlockedResultArrival _ _ _ | .asyncTrapTake _ _ | .haltedCauseDelivery _ _ | .statRecordWrite _ _
  | .lookupCommandStart _ _ | .lookupCommandRetire _ _ | .maclrRetire _ _ | .macwrRetire _ _ | .mbiasRetire _ _ | .mmaskStart _ _ | .mmaskRetire _ _
  | .copyChunk _ _ _ | .copyCompletionRecord _ _ _ | .ypushFinish _ _ _ | .releasePerformed _ _ _ | .l1Writeback _ _ _ _ | .l2Writeback _ _ _ _
  | .l1MissFill _ _ _ | .barrierStep _ _ _ | .sliceSetRequest _ _ _ | .l2EccError _ _ _ | .pageWalk _ _ _ _ | .tlbinvAll _ | .tlbinvAsn _
  | .tlbinvRange _ | .tlbinvCwPurge _ | .tlbinvComplete _ | .pgansMapped _ _ | .pgansDeclined _ _ | .preload _ _ | .pinRangeWrite _ _ _
  | .atlockSet _ | .atlogClear _ | .accessTableWrite _ _ _ | .ebudgetWrite _ _ | .registerWrite _ _ | .energyWindowBoundary _ | .energySoftLimit _
  | .energyHardHold _ | .schedulerPass _ | .threadCompletion _ _ | .armStep _ _ _ | .patchStep _ _ _ | .nrcmdResume _ _ | .nrcmdEnd _ _ _
  | .nrcmdRemove _ _ | .nrcmdPreempt _ _ | .coldReset | .warmReset | .taprootStart _ _ _ | .taprootInterrupt _ _ | .hostDoorbell _ | .outdbSend _
  | .inboundMsi _ | .pcieInboundAccess _ _ _ | .gtrigWrite _ | .triggerShadowCopy | .triggerMessage _ | .linkDown _ | .canopyPortDown _
  | .portTrain _ _ _ _ | .memoryUncorrectable _ _ | .patrolScrub _ _ _ | .attestReport _ | .mrExtend _ _ | .fuseRaise _ _ | .debugUnlock _ | .freeze _ _
  | .resume _ _ | .step _ _ | .stepover _ _ | .read _ _ | .cancel _ _ | .reinject _ _ | .write _ _ | .thermalThrottle _ | .thermalHold _
  | .thermalHoldRelease _ | .thermtrip _ | .fabricInboundAccess _ _ _ | .fabricWriteAck _ | .switchMerge _ _ | .homeMerge _ | .fabredWrite _ _ _
  | .routeWrite _ _ | .fabcfgWrite _ | .lkiLoad _ _ | .storeQueueDrain _ _ _ => none

end Sys2Proof
end

