-- ==== Sys2Proof/WellFormed.lean ====
section
/-! DEFINITION. Which instructions are well formed: the restrictions on field values that no field type carries
(02_encodings.md R47, R51, R54; 04_control_scalar.md R116; 05_vector.md R135, R140, R151, R163). An ill-formed word raises SLOT_ILLEGAL.
A step of another agent has no encoding and is well formed. -/

namespace Sys2Proof

/-- Integer types, codes 0 to 5 (05_vector.md R135, letter I). -/
def Ty.isInt : Ty → Bool
  | .i8 | .i16 | .i32 | .u8 | .u16 | .u32 => true
  | .bf16 | .f32 | .nf _ | .e5m3 => false

/-- BF16, FP32 and the narrow floats, codes 6 to 11 (05_vector.md R135, letter F). -/
def Ty.isFloat : Ty → Bool
  | .bf16 | .f32 | .nf _ => true
  | .i8 | .i16 | .i32 | .u8 | .u16 | .u32 | .e5m3 => false

/-- The 8- and 16-bit integer types of the pairing and width-changing forms (05_vector.md R145, R146). -/
def Ty.isPairInt : Ty → Bool
  | .i8 | .i16 | .u8 | .u16 => true
  | .i32 | .u32 | .bf16 | .f32 | .nf _ | .e5m3 => false

/-- Element width in bytes; a narrow float counts as one byte (nibble types are refused where this matters, 05_vector.md R133, R163). -/
def Ty.bytes : Ty → Nat
  | .i8 | .u8 | .nf _ | .e5m3 => 1
  | .i16 | .u16 | .bf16 => 2
  | .i32 | .u32 | .f32 => 4

/-- Field values a control operation permits. -/
def ControlOp.wf : ControlOp → Bool
  | .barinit _ n => decide (n.toNat < 1024)
  | .bararv _ n => decide (n.toNat < 1024)
  | .barwait _ n => decide (n.toNat < 1024)
  | .cnop | .br _ | .brp _ _ _ | .brlc _ _ | .brl _ _ | .brx _ | .halt | .delay _ | .pbr _ _ | .pbrs _ _ | .bget _ _ | .btok _ _ | .lcset _ _
  | .lcsets _ _ | .lcget _ _ | .skset _ _ | .sksets _ _ | .skget _ _ | .shape _ _ _ | .shapex _ _ _ | .shget _ _ | .fdset _ _ | .fdget _ _
  | .hinit _ _ | .hwait _ _ | .hres _ _ | .hadv _ _ | .hcommit _ _ | .hget _ _ | .hstat _ _ | .qfence _ | .barrem _ _ | .gjoin _ | .gleave _
  | .lpatch _ _ _ | .larm _ _ | .lwait _ | .trap _ | .rft | .brk _ | .csrrd _ _ | .csrwr _ _ | .csrset _ _ | .csrclr _ _ | .scall _ | .sret | .wfi
  | .tbwait _ _ => true

/-- Field values a scalar operation permits. -/
def ScalarOp.wf : ScalarOp → Bool
  | .shli _ _ i => decide (i.toNat < 64)
  | .shri _ _ i => decide (i.toNat < 64)
  | .srai _ _ i => decide (i.toNat < 64)
  | .roli _ _ i => decide (i.toNat < 64)
  | .snop | .add _ _ _ | .sub _ _ _ | .mul _ _ _ | .mulh _ _ _ | .mulhu _ _ _ | .and _ _ _ | .or _ _ _ | .xor _ _ _ | .andn _ _ _ | .orn _ _ _
  | .shl _ _ _ | .shr _ _ _ | .sra _ _ _ | .rol _ _ _ | .min _ _ _ | .max _ _ _ | .minu _ _ _ | .maxu _ _ _ | .slt _ _ _ | .sltu _ _ _ | .seq _ _ _
  | .sne _ _ _ | .clz _ _ | .mov _ _ | .ctz _ _ | .popc _ _ | .sext _ _ _ | .zext _ _ _ | .addi _ _ _ | .muli _ _ _ | .andi _ _ _ | .ori _ _ _
  | .xori _ _ _ | .slti _ _ _ | .sltui _ _ _ | .seqi _ _ _ | .mini _ _ _ | .maxi _ _ _ | .li _ _ | .lih _ _ | .addx _ _ _ | .andx _ _ _ | .orx _ _ _
  | .xorx _ _ _ | .spset _ _ | .spany _ _ | .spall _ _ | .spcnt _ _ | .scyc _ | .svl _ | .bswap _ _ => true

/-- Field values a address operation permits. -/
def AddressOp.wf : AddressOp → Bool
  | .anop | .aadd _ _ _ | .asub _ _ _ | .aadda _ _ _ | .amov _ _ | .asets _ _ | .agets _ _ | .aaddi _ _ _ | .ali _ _ | .alih _ _ | .aaddx _ _ _
  | .ldspI8 _ _ _ _ | .ldspI16 _ _ _ _ | .ldspI32 _ _ _ _ | .ldspI64 _ _ _ _ | .ldspUi8 _ _ _ _ | .ldspUi16 _ _ _ _ | .ldspUi32 _ _ _ _
  | .stspI8 _ _ _ _ | .stspI16 _ _ _ _ | .stspI32 _ _ _ _ | .stspI64 _ _ _ _ | .ldgI8 _ _ _ _ | .ldgI16 _ _ _ _ | .ldgI32 _ _ _ _ | .ldgI64 _ _ _ _
  | .ldgUi8 _ _ _ _ | .ldgUi16 _ _ _ _ | .ldgUi32 _ _ _ _ | .stgI8 _ _ _ _ | .stgI16 _ _ _ _ | .stgI32 _ _ _ _ | .stgI64 _ _ _ _ | .ldf _ _ _ _
  | .ldfe _ _ _ _ | .ste _ _ _ _ | .feemp _ _ _ | .waita _ _ _ _ | .amadd _ _ _ _ | .amand _ _ _ _ | .amor _ _ _ _ | .amxor _ _ _ _ | .ammin _ _ _ _
  | .ammax _ _ _ _ | .amswp _ _ _ _ | .amcas _ _ _ _ | .ldaqI32 _ _ _ _ | .ldaqI64 _ _ _ _ | .strlI32 _ _ _ _ | .strlI64 _ _ _ _ | .qmark | .l1fl _
  | .l1inv _ | .l1fll _ _ | .l1invl _ _ | .ldpf _ _ => true

/-- Field values a vector operation permits. -/
def VectorOp.wf : VectorOp → Bool
  | .vadd _ _ _ t => t.isInt || t.isFloat
  | .vsub _ _ _ t => t.isInt || t.isFloat
  | .vmul _ _ _ t => t.isInt || t.isFloat
  | .vmulh _ _ _ t => t.isInt
  | .vadds _ _ _ t => t.isInt
  | .vsubs _ _ _ t => t.isInt
  | .vmin _ _ _ t => t.isInt || t.isFloat
  | .vmax _ _ _ t => t.isInt || t.isFloat
  | .vabs _ _ t => t.isInt || t.isFloat
  | .vneg _ _ t => t.isInt || t.isFloat
  | .vand _ _ _ t => t.isInt
  | .vor _ _ _ t => t.isInt
  | .vxor _ _ _ t => t.isInt
  | .vnot _ _ t => t.isInt
  | .vshl _ _ _ t => t.isInt
  | .vshr _ _ _ t => t.isInt
  | .vsra _ _ _ t => t.isInt
  | .vavg _ _ _ t => t.isInt
  | .vabsd _ _ _ t => t.isInt || t.isFloat
  | .vclz _ _ t => t.isInt
  | .vpopc _ _ t => t.isInt
  | .vrsum _ _ t => t.isInt || t.isFloat
  | .vrmax _ _ t => t.isInt || t.isFloat
  | .vrmin _ _ t => t.isInt || t.isFloat
  | .vmaxexp _ t => t == .bf16 || t == .f32
  | .vseedx _ _ t => t == .i8 || t == .i16 || t == .i32 || t == .bf16 || t == .f32
  | .vseedc _ _ _ t => t == .i8 || t == .i16
  | .vfma _ _ _ t _ _ => t.isFloat
  | .vfms _ _ _ t _ _ => t.isFloat
  | .vfnma _ _ _ t _ _ => t.isFloat
  | .vfnms _ _ _ t _ _ => t.isFloat
  | .vaddr _ _ _ t _ => t.isFloat
  | .vmulr _ _ _ t _ => t.isFloat
  | .vcvt _ _ _ _ sc _ _ => decide (sc.toNat < 2)
  | .vaddi _ _ t _ => t.isInt || t.isFloat
  | .vmuli _ _ t _ => t.isInt || t.isFloat
  | .vandi _ _ t _ => t.isInt
  | .vori _ _ t _ => t.isInt
  | .vshli _ _ t imm => t.isInt && decide (imm.toNat < 8 * t.bytes)
  | .vshri _ _ t imm => t.isInt && decide (imm.toNat < 8 * t.bytes)
  | .vsrai _ _ t imm => t.isInt && decide (imm.toNat < 8 * t.bytes)
  | .vcmpeq _ _ _ t => t.isInt || t.isFloat
  | .vcmpne _ _ _ t => t.isInt || t.isFloat
  | .vcmplt _ _ _ t => t.isInt || t.isFloat
  | .vcmple _ _ _ t => t.isInt || t.isFloat
  | .vcmpgt _ _ _ t => t.isInt || t.isFloat
  | .vcmpge _ _ _ t => t.isInt || t.isFloat
  | .vcmpun _ _ _ t => t.isFloat
  | .vclass _ _ _ t => t.isFloat
  | .vexp _ _ t => t == .bf16
  | .vexp2 _ _ t => t == .bf16
  | .vlog _ _ t => t == .bf16
  | .vlog2 _ _ t => t == .bf16
  | .vrcp _ _ t => t == .bf16
  | .vrsq _ _ t => t == .bf16
  | .vsqrt _ _ t => t == .bf16
  | .vtanh _ _ t => t == .bf16
  | .vsigm _ _ t => t == .bf16
  | .vsilu _ _ t => t == .bf16
  | .vgelu _ _ t => t == .bf16
  | .vsin _ _ t => t == .bf16
  | .vcos _ _ t => t == .bf16
  | .verf _ _ t => t == .bf16
  | .vtwr _ _ _ td ts _ => decide (td.bytes ≤ ts.bytes)
  | .vtrd _ _ _ td ts _ => decide (td.bytes ≤ ts.bytes)
  | .vwiden _ _ t => t.isPairInt || t == .bf16
  | .vnarrow _ _ _ t => t.isPairInt || t == .bf16
  | .vpack _ _ _ t => t.isPairInt
  | .vunpack _ _ t => t.isPairInt || t == .bf16
  | .vsumw _ _ _ t => t.isPairInt
  | .vdot2 _ _ _ t => t.isPairInt || t == .bf16
  | .vscale _ _ _ t => t.isFloat
  | .vround _ _ t => t.isFloat
  | .vfloor _ _ t => t.isFloat
  | .vnop | .vmov _ _ _ | .vperm _ _ _ _ | .vzip _ _ _ _ | .vunzip _ _ _ _ | .vsel _ _ _ _ _ | .vbcst _ _ _ | .vpand _ _ _ | .vpor _ _ _
  | .vpxor _ _ _ | .vpandn _ _ _ | .vtbld _ _ _ | .vld _ _ _ _ _ | .vst _ _ _ _ _ | .vldb _ _ _ _ _ | .vldnt _ _ _ _ _ | .vstnt _ _ _ _ _
  | .vgath _ _ _ _ _ | .vscat _ _ _ _ _ | .vscata _ _ _ _ _ | .vslide _ _ _ _ | .vrev _ _ _ => true

/-- Field values a matrix operation permits. -/
def MatrixOp.wf : MatrixOp → Bool
  | .mcbset _ sel => decide (sel.val < 5)
  | .mstat _ n => decide (n.val < 5)
  | .mcbget _ sel => decide (sel.val < 6)
  | .macrd _ _ col => decide (col.val < 15)
  | .macwr _ _ col => decide (col.val < 15)
  | .mbias _ _ col => decide (col.val < 15)
  | .mnop | .mlut _ _ _ _ _ _ | .mlutg _ _ _ _ _ _ _ _ | .mluts _ _ _ _ _ _ | .mlutsg _ _ _ _ _ _ _ _ | .maclr _ _ _ | .mmask _ | .mreset
  | .mlutk _ _ _ _ _ _ | .mlutgk _ _ _ _ _ _ _ _ => true

/-- Field values a copy operation permits. -/
def CopyOp.wf : CopyOp → Bool
  | .ynop | .ycopy _ _ _ _ | .ypush _ _ _ _ | .yacc _ _ _ _ | .yaccp _ _ _ _ | .ymx4 _ _ _ _ | .ysadd _ _ _ _ | .yatom _ _ _ _ | .ypref _ _ _ _
  | .yfill _ _ _ _ | .yrem _ _ _ _ | .ygath _ _ _ _ | .yscat _ _ _ _ | .yline _ _ _ _ | .ycancel | .yldv _ _ _ => true

/-- Permitted field values of an operation; a no-operation is its class's all-zero word, which holds no guard (R54). -/
def Slot.wf (x : Slot) : Bool :=
  match x.op with
  | .c .cnop => decide (x.g = .always)
  | .s .snop => decide (x.g = .always)
  | .a .anop => decide (x.g = .always)
  | .v _ .vnop => decide (x.g = .always)
  | .m .mnop => decide (x.g = .always)
  | .y _ .ynop => decide (x.g = .always)
  | .c o => o.wf
  | .s o => o.wf
  | .a o => o.wf
  | .v _ o => o.wf
  | .m o => o.wf
  | .y _ o => o.wf

/-- Whether the fields of an instruction hold values its own description permits. -/
def Instr.wf (i : Instr) : Bool :=
  match i.slot with
  | some x => x.wf
  | none => true

end Sys2Proof
end

