-- ==== Sys2Proof/Machine/Num.lean ====
section
/-! DEFINITION. Exact values, narrow formats, rounding and the results written to a destination (03_numbers.md R63 to R89).
Every operation is computed exactly on rationals and rounded once. -/

namespace Sys2Proof.Machine

open Sys2Proof

/-- An exact value: NaN, infinity or (−1)^neg · n / d with d positive. -/
inductive Num where
  | nan
  | inf (neg : Bool)
  | fin (neg : Bool) (n d : Nat)
  deriving DecidableEq, Repr

/-- The event kinds of Table 3-8. -/
inductive Ev where
  | nan | ovf | unf | sat | zscale | scaleSat
  deriving DecidableEq, Repr

/-- Event codes of Table 3-8. -/
def Ev.code : Ev → Nat
  | .nan => 0x20 | .ovf => 0x21 | .unf => 0x22 | .sat => 0x23 | .zscale => 0x24 | .scaleSat => 0x25

/-- What a format does with special codes (R70). -/
inductive Policy where
  | finiteOnly | ieee | noSpecials
  deriving DecidableEq, Repr

/-- A floating-point format: sign present, policy, exponent width, mantissa width and bias (Table 3-1); BF16 and FP32 fit it too (R65). -/
structure Fmt where
  sgn : Bool
  pol : Policy
  ew : Nat
  mw : Nat
  bias : Int
  deriving DecidableEq, Repr

def Fmt.bf16 : Fmt := ⟨true, .ieee, 8, 7, 127⟩
def Fmt.fp32 : Fmt := ⟨true, .ieee, 8, 23, 127⟩
/-- The fixed descriptor 0x0_2B0F (R72, R73). -/
def Fmt.e5m3 : Fmt := ⟨false, .finiteOnly, 5, 3, 15⟩

def Fmt.width (f : Fmt) : Nat := f.ew + f.mw + (if f.sgn then 1 else 0)

/-- The fields of a 17-bit descriptor (Table 3-1), none where it is invalid (R69). -/
def Fmt.ofDesc (x : BitVec 17) : Option Fmt :=
  let v := x.toNat
  let s := v / 2 ^ 16 % 2 == 1
  let ew := v / 2 ^ 11 % 8
  let mw := v / 2 ^ 8 % 8
  let b := v % 256
  let bias : Int := if b < 128 then b else (b : Int) - 256
  let w := ew + mw + (if s then 1 else 0)
  if w < 1 ∨ w > 8 ∨ ew + mw < 2 then none else
  match v / 2 ^ 14 % 4 with
  | 0 => some ⟨s, .finiteOnly, ew, mw, bias⟩
  | 1 => if 2 ≤ ew ∧ 1 ≤ mw then some ⟨s, .ieee, ew, mw, bias⟩ else none
  | 2 => some ⟨s, .noSpecials, ew, mw, bias⟩
  | _ => none

/-- m · 2^k as a pair numerator, denominator. -/
def scale2 (m : Nat) (k : Int) : Nat × Nat :=
  match k with
  | .ofNat j => (m * 2 ^ j, 1)
  | .negSucc j => (m, 2 ^ (j + 1))

/-- The exponent of a format's smallest normal value. -/
def Fmt.emin (f : Fmt) : Int := 1 - f.bias

/-- The value of a magnitude code without special codes (R70). -/
def Fmt.magValue (f : Fmt) (mag : Nat) : Nat × Nat :=
  let e := mag / 2 ^ f.mw
  let m := mag % 2 ^ f.mw
  if e = 0 then scale2 m (f.emin - f.mw) else scale2 (2 ^ f.mw + m) (f.emin - f.mw + (e - 1 : Nat))

/-- The value of a code (R70). -/
def Fmt.decode (f : Fmt) (code : Nat) : Num :=
  let mag := code % 2 ^ (f.ew + f.mw)
  let s := f.sgn && code / 2 ^ (f.ew + f.mw) % 2 == 1
  let e := mag / 2 ^ f.mw
  let m := mag % 2 ^ f.mw
  let v := f.magValue mag
  match f.pol with
  | .noSpecials => .fin s v.1 v.2
  | .finiteOnly => if mag + 1 = 2 ^ (f.ew + f.mw) then .nan else .fin s v.1 v.2
  | .ieee => if e + 1 = 2 ^ f.ew then (if m = 0 then .inf s else .nan) else .fin s v.1 v.2

/-- The largest finite magnitude code (R70). -/
def Fmt.maxMag (f : Fmt) : Nat :=
  match f.pol with
  | .noSpecials => 2 ^ (f.ew + f.mw) - 1
  | .finiteOnly => 2 ^ (f.ew + f.mw) - 2
  | .ieee => (2 ^ f.ew - 1) * 2 ^ f.mw - 1

/-- The canonical NaN; +0 where the format has none (R66, R70, Table 3-4). -/
def Fmt.nanCode (f : Fmt) : Nat :=
  match f.pol with
  | .noSpecials => 0
  | .finiteOnly => 2 ^ (f.ew + f.mw) - 1
  | .ieee => (2 ^ f.ew - 1) * 2 ^ f.mw + 2 ^ (f.mw - 1)

def Fmt.infMag (f : Fmt) : Nat := (2 ^ f.ew - 1) * 2 ^ f.mw

/-- A code with its sign bit, which an unsigned format lacks. -/
def Fmt.withSign (f : Fmt) (s : Bool) (mag : Nat) : Nat :=
  if f.sgn && s then mag + 2 ^ (f.ew + f.mw) else mag

/-- floor(log2 (n / d)) for n, d > 0. -/
def ilog2 (n d : Nat) : Int :=
  let e : Int := (Nat.log2 n : Int) - Nat.log2 d
  let p := scale2 1 e
  if p.1 * d ≤ n * p.2 then e else e - 1

/-- Rounding mode with the random bits of the element for RS (R76, R77). -/
inductive Rnd where
  | rne | rtz
  | rs (r : Nat)
  deriving DecidableEq, Repr

/-- The mode of an RM field, given the element's random bits. -/
def Rnd.of (m : Rm) (r : Nat) : Rnd :=
  match m with
  | .rne => .rne
  | .rtz => .rtz
  | .rs => .rs r

/-- n / d rounded to an integer; `even` says that the lower neighbour is the even one (R76, R77). -/
def roundQuot (m : Rnd) (n d : Nat) (even : Bool) : Nat :=
  let k := n / d
  let r := n % d
  if r = 0 then k else
  match m with
  | .rtz => k
  | .rne => if 2 * r < d then k else if 2 * r > d then k + 1 else if even then k else k + 1
  | .rs q => if 65536 * r / d > q then k + 1 else k

/-- The magnitude code nearest to n / d, with the exponent range unbounded above (R76, R77). Neighbouring codes are neighbouring values;
a tie takes the even code (DEDUCED, log 6). -/
def Fmt.roundMag (f : Fmt) (m : Rnd) (n d : Nat) : Nat :=
  if n = 0 then 0 else
  let e := ilog2 n d
  let up : Nat := (e - f.emin).toNat
  let q := scale2 1 (f.emin - f.mw + up)
  let k := n * q.2 / (d * q.1)
  let base := up * 2 ^ f.mw
  base + roundQuot m (n * q.2) (d * q.1) ((base + k) % 2 == 0)

/-- What is written for an exact value into a floating-point destination (R79, Table 3-4). -/
def Fmt.round (f : Fmt) (m : Rnd) (x : Num) : Nat × Option Ev :=
  match x with
  | .nan => (f.nanCode, some .nan)
  | .inf s =>
    if s && !f.sgn then (0, some .sat)
    else match f.pol with
      | .ieee => (f.withSign s f.infMag, none)
      | .finiteOnly => (f.withSign s f.maxMag, some .ovf)
      | .noSpecials => (f.withSign s f.maxMag, some .ovf)
  | .fin s n d =>
    if n = 0 then (f.withSign s 0, none)
    else if s && !f.sgn then (0, some .sat)
    else
      let k := f.roundMag m n d
      if k > f.maxMag then
        match f.pol, m with
        | .ieee, .rtz => (f.withSign s f.maxMag, some .ovf)
        | .ieee, _ => (f.withSign s f.infMag, some .ovf)
        | _, _ => (f.withSign s f.maxMag, some .ovf)
      else if k = 0 then (f.withSign s 0, some .unf)
      else (f.withSign s k, none)

/-- What is written for an exact value into an integer destination of `w` bits (R79, Table 3-4). -/
def roundInt (signed : Bool) (w : Nat) (m : Rnd) (x : Num) : Nat × Option Ev :=
  let top := if signed then 2 ^ (w - 1) - 1 else 2 ^ w - 1
  match x with
  | .nan => (0, some .nan)
  | .inf s => if s then (if signed then (2 ^ (w - 1), some .sat) else (0, some .sat)) else (top, some .sat)
  | .fin s n d =>
    if n = 0 then (0, none)
    else if s && !signed then (0, some .sat)
    else
      let k := roundQuot m n d (n / d % 2 == 0)
      if k = 0 then (0, some .unf)
      else if s then (if k > 2 ^ (w - 1) then (2 ^ (w - 1), some .sat) else (2 ^ w - k, none))
      else if k > top then (top, some .sat) else (k, none)

/-- Clamps an exact integer into a destination of `w` bits (R64). -/
def satInt (signed : Bool) (w : Nat) (x : Int) : Nat × Option Ev :=
  let lo : Int := if signed then -(2 ^ (w - 1) : Nat) else 0
  let hi : Int := if signed then (2 ^ (w - 1) - 1 : Nat) else (2 ^ w - 1 : Nat)
  if x < lo then ((lo % (2 ^ w : Nat)).toNat, some .sat)
  else if x > hi then (hi.toNat, some .sat)
  else ((x % (2 ^ w : Nat)).toNat, none)

/-- An integer modulo 2^w (R64). -/
def wrapInt (w : Nat) (x : Int) : Nat := (x % (2 ^ w : Nat)).toNat

/-- A code of `w` bits read as a two's complement integer. -/
def sInt (w : Nat) (x : Nat) : Int := if x < 2 ^ (w - 1) then x else (x : Int) - (2 ^ w : Nat)

def asInt (signed : Bool) (w x : Nat) : Int := if signed then sInt w x else x

def Num.ofInt (x : Int) : Num := .fin (decide (x < 0)) x.natAbs 1

def Num.neg : Num → Num
  | .nan => .nan
  | .inf s => .inf (!s)
  | .fin s n d => .fin (!s) n d

def Num.abs : Num → Num
  | .nan => .nan
  | .inf _ => .inf false
  | .fin _ n d => .fin false n d

def Num.isNan : Num → Bool
  | .nan => true
  | .inf _ => false
  | .fin _ _ _ => false

/-- Exact sum; ∞ − ∞ is invalid, and a zero sum takes the sign of R67. -/
def Num.add : Num → Num → Num
  | .nan, _ => .nan
  | .inf _, .nan => .nan
  | .fin _ _ _, .nan => .nan
  | .inf s, .inf t => if s = t then .inf s else .nan
  | .inf s, .fin _ _ _ => .inf s
  | .fin _ _ _, .inf t => .inf t
  | .fin s n d, .fin t m e =>
    let a : Int := (n * e : Nat)
    let b : Int := (m * d : Nat)
    let r := (if s then -a else a) + (if t then -b else b)
    if r = 0 then .fin (s && t) 0 1 else .fin (decide (r < 0)) r.natAbs (d * e)

def Num.sub (a b : Num) : Num := a.add b.neg

/-- Exact product; 0 × ∞ is invalid. -/
def Num.mul : Num → Num → Num
  | .nan, _ => .nan
  | .inf _, .nan => .nan
  | .fin _ _ _, .nan => .nan
  | .inf s, .inf t => .inf (s != t)
  | .inf s, .fin t m _ => if m = 0 then .nan else .inf (s != t)
  | .fin s n _, .inf t => if n = 0 then .nan else .inf (s != t)
  | .fin s n d, .fin t m e => .fin (s != t) (n * m) (d * e)

/-- Exact quotient by a nonzero finite value or NaN (R81). -/
def Num.divBy (x y : Num) : Num :=
  match x, y with
  | .nan, _ => .nan
  | _, .nan => .nan
  | .inf s, .fin t _ _ => .inf (s != t)
  | .fin s n d, .fin t m e => .fin (s != t) (n * e) (d * m)
  | .inf _, .inf _ => .nan
  | .fin s _ _, .inf t => .fin (s != t) 0 1

/-- Order of two values that are not NaN; −0 equals +0. -/
def Num.lt : Num → Num → Bool
  | .inf true, .inf true => false
  | .inf true, .fin _ _ _ => true
  | .inf true, .inf false => true
  | .fin _ _ _, .inf t => !t
  | .fin s n d, .fin t m e =>
    let a : Int := (n * e : Nat)
    let b : Int := (m * d : Nat)
    decide ((if s then -a else a) < (if t then -b else b))
  | _, _ => false

/-- Equality of values that are not NaN; −0 equals +0. -/
def Num.eq (a b : Num) : Bool :=
  match a, b with
  | .nan, _ => false
  | _, .nan => false
  | a, b => !(a.lt b) && !(b.lt a)

/-- The order in which −0 lies below +0 (R87, Table 5-1). -/
def Num.below (a b : Num) : Bool :=
  a.lt b ||
  match a, b with
  | .fin true 0 _, .fin false 0 _ => true
  | _, _ => false

def Num.min (a b : Num) : Num := if a.isNan || b.isNan then .nan else if b.below a then b else a
def Num.max (a b : Num) : Num := if a.isNan || b.isNan then .nan else if a.below b then b else a

/-- x · 2^k; beyond ±600 every format's result is the same (VSCALE, R148). -/
def Num.mulPow2 (x : Num) (k : Int) : Num :=
  let k := if k > 600 then 600 else if k < -600 then -600 else k
  let p := scale2 1 k
  x.mul (.fin false p.1 p.2)

/-- Rounds to an integral value, ties to even, or downwards (VROUND, VFLOOR, R148); a zero keeps the operand's sign. -/
def Num.toIntegral (floor : Bool) (x : Num) : Num :=
  match x with
  | .fin s n d =>
    if n = 0 then .fin s 0 1
    else if floor then (if s && n % d != 0 then .fin s (n / d + 1) 1 else .fin s (n / d) 1)
    else .fin s (roundQuot .rne n d (n / d % 2 == 0)) 1
  | .nan => .nan
  | .inf s => .inf s

/-- rne(x, fp32) as an exact value again, with the event of that rounding (R79, R86). -/
def Num.fp32 (x : Num) : Num × Option Ev := let r := Fmt.fp32.round .rne x; (Fmt.fp32.decode r.1, r.2)

/-- The order of the events of R79's rows. -/
def Ev.rank : Ev → Nat
  | .nan => 0 | .sat => 1 | .ovf => 2 | .unf => 3 | .zscale => 4 | .scaleSat => 5

/-- The one event of an element that is rounded more than once: the one whose row of R79 comes first (DEDUCED, log 58). -/
def firstEv (a b : Option Ev) : Option Ev :=
  match a, b with
  | some x, some y => if y.rank < x.rank then some y else some x
  | some x, none => some x
  | none, y => y

/-- The value of a code widened to FP32 (R86); what FP32 cannot hold exactly is a free FP32 code (DESIGN CHOICE, log 59). -/
def Fmt.widen (f : Fmt) (code : Nat) : Num :=
  let v := f.decode code
  let w := v.fp32.1
  if v.eq w || v.isNan then v else Fmt.fp32.decode (Config.wideCode code % 2 ^ 32)

/-- Classes 0 to 8 of VCLASS (R142) for a code of format `f`. -/
def Fmt.classOf (f : Fmt) (code : Nat) : Nat :=
  let e := code % 2 ^ (f.ew + f.mw) / 2 ^ f.mw
  match f.decode code with
  | .nan => 0
  | .inf s => if s then 1 else 8
  | .fin s n _ =>
    if n = 0 then (if s then 4 else 5)
    else if e = 0 then (if s then 3 else 6)
    else (if s then 2 else 7)

/-- γ of R78. -/
def gammaR : Nat := 0x9E3779B97F4A7C15

/-- The 16 random bits of element `j` (R78). -/
def rbits (state : W64) (j : Nat) : Nat :=
  let z := (state.toNat + (j + 1) * gammaR) % 2 ^ 64
  let z := (z ^^^ (z / 2 ^ 30)) * 0xBF58476D1CE4E5B9 % 2 ^ 64
  let z := (z ^^^ (z / 2 ^ 27)) * 0x94D049BB133111EB % 2 ^ 64
  (z ^^^ (z / 2 ^ 31)) % 2 ^ 16

/-- A random state after an instruction that rounds under RS (R78). -/
def advanceRng (state : W64) : W64 := state + BitVec.ofNat 64 (512 * gammaR)

/-- An element type with its descriptor resolved at issue: an integer type of 8·`bytes` bits, or a float format held in `bytes` bytes,
or in one nibble where `bytes` is 0 (R63, R71, R133). -/
inductive ETy where
  | int (signed : Bool) (bytes : Nat)
  | flt (f : Fmt) (bytes : Nat)
  deriving DecidableEq, Repr

/-- Element width in bits, 4 for a nibble. -/
def ETy.bits : ETy → Nat
  | .int _ b => 8 * b
  | .flt _ b => if b = 0 then 4 else 8 * b

def ETy.isFlt : ETy → Bool
  | .int _ _ => false
  | .flt _ _ => true

def ETy.isNibble : ETy → Bool
  | .int _ _ => false
  | .flt _ b => b == 0

/-- The number of bits of an element that hold its code (R71). -/
def ETy.codeBits : ETy → Nat
  | .int _ b => 8 * b
  | .flt f _ => f.width

/-- A code as it is written into an element: unused high bits are zero (R71). -/
def ETy.code (t : ETy) (x : Nat) : Nat := x % 2 ^ t.codeBits

/-- The exact value of an element (R63, R70); unused high bits of a byte or nibble are ignored (R71). -/
def ETy.value (t : ETy) (x : Nat) : Num :=
  match t with
  | .int s b => .ofInt (asInt s (8 * b) x)
  | .flt f _ => f.decode (x % 2 ^ f.width)

/-- What is written into an element for an exact value (R79). -/
def ETy.round (t : ETy) (m : Rnd) (x : Num) : Nat × Option Ev :=
  match t with
  | .int s b => roundInt s (8 * b) m x
  | .flt f _ => f.round m x

/-- The element type of a narrow-float descriptor (R71). -/
def ETy.ofFmt (f : Fmt) : ETy := .flt f (if f.width ≤ 4 then 0 else 1)

/-- A type code under descriptor registers f0 to f3; none where the register holds an invalid descriptor (R69). -/
def Ty.resolve (fd : Fin 4 → BitVec 17) : Ty → Option ETy
  | .i8 => some (.int true 1) | .i16 => some (.int true 2) | .i32 => some (.int true 4)
  | .u8 => some (.int false 1) | .u16 => some (.int false 2) | .u32 => some (.int false 4)
  | .bf16 => some (.flt .bf16 2) | .f32 => some (.flt .fp32 4)
  | .nf k => (Fmt.ofDesc (fd k)).map ETy.ofFmt
  | .e5m3 => some (.flt .e5m3 1)

/-- The smallest E5M3 code whose value is at least n / d, with the clamp of R83. -/
def e5m3AtLeast (n d : Nat) : Nat × Option Ev :=
  if n = 0 then (0, none)
  else
    let k := Fmt.e5m3.roundMag .rtz n d
    let v := Fmt.e5m3.magValue k
    let c := if v.1 * d = n * v.2 then k else k + 1
    if c > 0xFE then (0xFE, some .scaleSat) else (c, none)

/-- One level of the tree of R86 on a list whose length is a power of two: the sums, and the events of their roundings. -/
def treeLevel : List Num → List Num × Option Ev
  | a :: b :: l =>
    let s := (a.add b).fp32
    let r := treeLevel l
    (s.1 :: r.1, firstEv s.2 r.2)
  | l => (l, none)

def treeSumAux : Nat → List Num → Option Ev → Num × Option Ev
  | 0, l, e => (l.headD (.fin true 0 1), e)
  | k + 1, l, e => let r := treeLevel l; treeSumAux k r.1 (firstEv e r.2)

/-- The least k with n ≤ 2^k. -/
def clog2 (n : Nat) : Nat := if n ≤ 1 then 0 else Nat.log2 (n - 1) + 1

/-- The fixed binary tree of R86 over element positions already widened to FP32; disabled positions hold −0. -/
def treeSum (l : List Num) : Num × Option Ev :=
  let k := clog2 l.length
  treeSumAux k (l ++ List.replicate (2 ^ k - l.length) (.fin true 0 1)) none

end Sys2Proof.Machine
end

