-- ==== Sys2Proof/Machine/Flags.lean ====
section
/-! DEFINITION. What this hardware has in place of condition flags: arithmetic events (03_numbers.md R94, R95) and predicates
(01_bundles.md R27 to R29; 05_vector.md R141 to R143). -/

namespace Sys2Proof.Machine

open Sys2Proof

/-- One arithmetic record to post: event code, number of affected elements, lowest affected element (R95). -/
structure EvSum where
  code : Nat
  count : Nat
  first : Nat
  deriving DecidableEq, Repr

/-- The six event kinds in code order. -/
def Ev.all : List Ev := [.nan, .ovf, .unf, .sat, .zscale, .scaleSat]

/-- At most one record of each kind, counted together over the elements of an instruction (R95), in code order (DESIGN CHOICE, log 79). -/
def summarize (l : List (Nat × Ev)) : List EvSum :=
  Ev.all.filterMap fun k =>
    match (l.filter fun p => p.2 == k).map Prod.fst with
    | [] => none
    | i :: r => some ⟨k.code, r.length + 1, r.foldl Nat.min i⟩

/-- Element `i` of a register whose elements are `bits` wide (R63, R71). -/
def elemAt (x bits i : Nat) : Nat := x >>> (bits * i) % 2 ^ bits

/-- The number of elements whose lowest byte lane is below VL (R133). -/
def elemsBelow (vl bits : Nat) : Nat := (8 * vl + bits - 1) / bits

/-- A source with its elements at or above VL read as zero (R133). -/
def maskSource (vl bits x : Nat) : Nat := x % 2 ^ (bits * elemsBelow vl bits)

/-- Bit `i` of a predicate. -/
def predBit (p : Nat) (i : Nat) : Bool := p.testBit i

/-- Whether an element takes part: its lowest byte lane is below VL and its guard bit is set (R28). -/
def elemOn (vl guard bits i : Nat) : Bool := decide (i < elemsBelow vl bits) && guard.testBit (bits * i / 8)

/-- A register put together from its elements, element 0 lowest. -/
def packElems (bits : Nat) : List Nat → Nat
  | [] => 0
  | v :: l => v % 2 ^ bits + packElems bits l <<< bits

/-- The lanes of a list of predicate bits. -/
def packBits : List Bool → Nat
  | [] => 0
  | b :: l => (if b then 1 else 0) + 2 * packBits l

/-- All ones over byte lanes 0 to VL − 1. -/
def allLanes (vl : Nat) : Nat := 2 ^ vl - 1

/-- The common value of a predicate over lanes 0 to VL − 1, none where it is not uniform (R29, R41). -/
def uniform (vl p : Nat) : Option Bool :=
  let x := p % 2 ^ vl
  if x = 0 then some false else if x = allLanes vl then some true else none

/-- A predicate result with the bit of each element in all its byte lanes; lanes of elements that take no part are kept (R141). -/
def predResult (vl guard bits old : Nat) (f : Nat → Bool) : Nat :=
  packBits ((List.range 256).map fun l =>
    let i := 8 * l / bits
    if elemOn vl guard bits i && decide (l < vl) then f i else old.testBit l)

/-- Compare relations of Table 5-4. -/
inductive Rel where
  | eq | ne | lt | le | gt | ge | un
  deriving DecidableEq, Repr

def Rel.int (r : Rel) (a b : Int) : Bool :=
  match r with
  | .eq => a == b
  | .ne => a != b
  | .lt => decide (a < b)
  | .le => decide (a ≤ b)
  | .gt => decide (a > b)
  | .ge => decide (a ≥ b)
  | .un => false

def Rel.flt (r : Rel) (a b : Num) : Bool :=
  if a.isNan || b.isNan then r == .ne || r == .un
  else match r with
    | .eq => a.eq b
    | .ne => !(a.eq b)
    | .lt => a.lt b
    | .le => !(b.lt a)
    | .gt => b.lt a
    | .ge => !(a.lt b)
    | .un => false

/-- One compare bit (R141). -/
def Rel.elem (r : Rel) (t : ETy) (a b : Nat) : Bool :=
  match t with
  | .int s n => r.int (asInt s (8 * n) a) (asInt s (8 * n) b)
  | .flt f _ => r.flt (f.decode (a % 2 ^ f.width)) (f.decode (b % 2 ^ f.width))

end Sys2Proof.Machine
end

