-- ==== Sys2Proof/Machine/Special.lean ====
section
/-! DEFINITION. The BF16 special functions (03_numbers.md R89; 05_vector.md R149, Table 5-6): the exact mathematical value, computed in
fixed point with far more bits than any rounding decision of a BF16 argument needs, and rounded once by the caller.
Where a value is exact in fixed point (powers of two, perfect squares, reciprocals) it is exact here. -/

namespace Sys2Proof.Machine

open Sys2Proof

/-- Fraction bits of the fixed-point values below. -/
def fxP : Nat := 448

def fxOne : Nat := 2 ^ fxP

def fxMul (a b : Nat) : Nat := a * b / fxOne

/-- Σ term_k, where term_(k+1) = term_k · y / (k + 1): the exponential series. -/
def expSeries : Nat → Nat → Nat → Nat → Nat → Nat
  | 0, _, _, _, acc => acc
  | fuel + 1, y, k, term, acc => expSeries fuel y (k + 1) (fxMul term y / (k + 1)) (acc + term)

/-- Σ t^(2k+1) / (2k+1): the inverse hyperbolic tangent series; t2 is t². -/
def atanhSeries : Nat → Nat → Nat → Nat → Nat → Nat
  | 0, _, _, _, acc => acc
  | fuel + 1, t2, k, term, acc => atanhSeries fuel t2 (k + 1) (fxMul term t2) (acc + term / (2 * k + 1))

/-- ln m for m in [1, 2] in fixed point. -/
def fxLnMant (m : Nat) : Nat :=
  let t := (m - fxOne) * fxOne / (m + fxOne)
  2 * atanhSeries 160 (fxMul t t) 0 t 0

def fxLn2 : Nat := fxLnMant (2 * fxOne)

/-- e^y · 2^P for a fixed-point y with sign. -/
def fxExp (neg : Bool) (y : Nat) : Nat :=
  let k := y / fxLn2
  let r := y % fxLn2
  if neg then
    (if r = 0 then fxOne / 2 ^ k else expSeries 110 (fxLn2 - r) 0 fxOne 0 / 2 ^ (k + 1))
  else expSeries 110 r 0 fxOne 0 * 2 ^ k

/-- Σ (−1)^k / ((2k+1) · x^(2k+1)) with `f` fraction bits: arctangent of 1/x. -/
def atanInvSeries : Nat → Nat → Nat → Int → Int → Int
  | 0, _, _, _, acc => acc
  | fuel + 1, x2, k, term, acc => atanInvSeries fuel x2 (k + 1) (-(term / x2)) (acc + term / (2 * k + 1))

/-- π / 2 with 704 fraction bits (Machin). -/
def halfPi : Nat :=
  let a := atanInvSeries 320 25 0 ((2 ^ 704 / 5 : Nat) : Int) 0
  let b := atanInvSeries 100 57121 0 ((2 ^ 704 / 239 : Nat) : Int) 0
  (8 * a - 2 * b).toNat

/-- Alternating series of sine and cosine: term_(j+2) = −term_j · r² / ((j+1)(j+2)). -/
def sinSeries : Nat → Nat → Nat → Int → Int → Int
  | 0, _, _, _, acc => acc
  | fuel + 1, r2, j, term, acc => sinSeries fuel r2 (j + 2) (-(term * r2 / fxOne / ((j + 1) * (j + 2)))) (acc + term)

/-- sin (quarter = 0) or cos (quarter = 1) of n / d ≥ 0 in fixed point with sign. -/
def fxSin (n d quarter : Nat) : Int :=
  let x := n * 2 ^ 704 / d
  let q := x / halfPi + quarter
  let r := x % halfPi / 2 ^ (704 - fxP)
  let r2 := fxMul r r
  let s := sinSeries 60 r2 1 r 0
  let c := sinSeries 60 r2 0 fxOne 0
  match q % 4 with
  | 0 => s
  | 1 => c
  | 2 => -s
  | _ => -c

/-- Integer square root by bisection on bits. -/
def isqrtAux : Nat → Nat → Nat → Nat
  | 0, _, r => r
  | k + 1, n, r => let t := r + 2 ^ k; if t * t ≤ n then isqrtAux k n t else isqrtAux k n r

def isqrt (n : Nat) : Nat := isqrtAux (Nat.log2 n / 2 + 1) n 0

/-- √(n / d) in fixed point, rounded down. -/
def fxSqrt (n d : Nat) : Nat := isqrt (n * 2 ^ (2 * fxP) / d)

/-- Σ 2^k z^(2k+1) / (2k+1)!!. -/
def erfSeries : Nat → Nat → Nat → Nat → Nat → Nat
  | 0, _, _, _, acc => acc
  | fuel + 1, z2, k, term, acc => erfSeries fuel z2 (k + 1) (fxMul (2 * term) z2 / (2 * k + 3)) (acc + term)

/-- erf z for 0 ≤ z ≤ 16 in fixed point. -/
def fxErf (z : Nat) : Nat :=
  let z2 := fxMul z z
  let rootPi := fxSqrt (halfPi * 2) (2 ^ 704)
  2 * fxMul (fxExp true z2) (erfSeries 900 z2 0 z 0) * fxOne / rootPi

/-- A value too small for any BF16 result but not zero, and one just below 1. -/
def tinyValue (s : Bool) : Num := .fin s 1 (2 ^ 400)
def nearOne (s : Bool) : Num := .fin s (2 ^ 400 - 1) (2 ^ 400)

def ofFx (s : Bool) (x : Nat) : Num := .fin s x fxOne

/-- The fourteen special functions (Table 5-6). -/
inductive SpecialFn where
  | exp | exp2 | log | log2 | rcp | rsq | sqrt | tanh | sigm | silu | gelu | sin | cos | erf
  deriving DecidableEq, Repr

/-- e^(±n/d). -/
def expOf (s : Bool) (n d : Nat) : Num :=
  if n ≥ 200 * d then (if s then tinyValue false else .fin false (2 ^ 280) 1)
  else ofFx false (fxExp s (n * fxOne / d))

/-- 2^(±n/d). -/
def exp2Of (s : Bool) (n d : Nat) : Num :=
  if n ≥ 300 * d then (if s then tinyValue false else .fin false (2 ^ 300) 1)
  else
    let k := n / d
    let r := n % d
    if r = 0 then (if s then .fin false 1 (2 ^ k) else .fin false (2 ^ k) 1)
    else
      let f := if s then d - r else r
      let m := expSeries 110 (f * fxLn2 / d) 0 fxOne 0
      if s then .fin false m (fxOne * 2 ^ (k + 1)) else .fin false (m * 2 ^ k) fxOne

/-- ln(n/d), or log2(n/d) when `two`. -/
def logOf (two : Bool) (n d : Nat) : Num :=
  let e := ilog2 n d
  let p := scale2 1 e
  let l := fxLnMant (n * p.2 * fxOne / (d * p.1))
  if two then
    let v : Int := e * (fxOne : Int) + (l * fxOne / fxLn2 : Nat)
    .fin (decide (v < 0)) v.natAbs fxOne
  else
    let v : Int := e * (fxLn2 : Int) + (l : Int)
    .fin (decide (v < 0)) v.natAbs fxOne

/-- 1 / (1 + e^(∓n/d)) as numerator and denominator. -/
def sigmPair (s : Bool) (n d : Nat) : Nat × Nat :=
  let e := if n ≥ 300 * d then 1 else fxExp true (n * fxOne / d)
  if s then (e, fxOne + e) else (fxOne, fxOne + e)

/-- The exact value at a finite nonzero argument (−1)^s · n / d. -/
def SpecialFn.atFinite (f : SpecialFn) (s : Bool) (n d : Nat) : Num :=
  match f with
  | .exp => expOf s n d
  | .exp2 => exp2Of s n d
  | .log => if s then .nan else logOf false n d
  | .log2 => if s then .nan else logOf true n d
  | .rcp => .fin s d n
  | .rsq => if s then .nan else ofFx false (fxSqrt d n)
  | .sqrt => if s then .nan else ofFx false (fxSqrt n d)
  | .tanh =>
    if n ≥ 100 * d then nearOne s
    else let e := fxExp true (2 * n * fxOne / d); .fin s (fxOne - e) (fxOne + e)
  | .sigm => let p := sigmPair s n d; .fin false p.1 p.2
  | .silu => let p := sigmPair s n d; .fin s (n * p.1) (d * p.2)
  | .gelu =>
    if n ≥ 20 * d then (if s then tinyValue true else .fin false n d)
    else
      let z := fxSqrt (n * n) (2 * d * d)
      let e := fxErf z
      if s then .fin true (n * (fxOne - e)) (2 * d * fxOne) else .fin false (n * (fxOne + e)) (2 * d * fxOne)
  | .sin => let v := fxSin n d 0; .fin ((decide (v < 0)) != s) v.natAbs fxOne
  | .cos => let v := fxSin n d 1; .fin (decide (v < 0)) v.natAbs fxOne
  | .erf => if n ≥ 10 * d then nearOne s else ofFx s (fxErf (n * fxOne / d))

/-- The value at ±∞ (Table 5-6). -/
def SpecialFn.atInf (f : SpecialFn) (s : Bool) : Num :=
  match f with
  | .exp => if s then .fin false 0 1 else .inf false
  | .exp2 => if s then .fin false 0 1 else .inf false
  | .log => if s then .nan else .inf false
  | .log2 => if s then .nan else .inf false
  | .rcp => .fin s 0 1
  | .rsq => if s then .nan else .fin false 0 1
  | .sqrt => if s then .nan else .inf false
  | .tanh => .fin s 1 1
  | .sigm => if s then .fin false 0 1 else .fin false 1 1
  | .silu => if s then .fin true 0 1 else .inf false
  | .gelu => if s then .fin true 0 1 else .inf false
  | .sin => .nan
  | .cos => .nan
  | .erf => .fin s 1 1

/-- The value at ±0 (Table 5-6); the infinities of RCP, RSQ, LOG and LOG2 post no event. -/
def SpecialFn.atZero (f : SpecialFn) (s : Bool) : Num :=
  match f with
  | .exp => .fin false 1 1
  | .exp2 => .fin false 1 1
  | .log => .inf true
  | .log2 => .inf true
  | .rcp => .inf s
  | .rsq => .inf s
  | .sqrt => .fin s 0 1
  | .tanh => .fin s 0 1
  | .sigm => .fin false 1 2
  | .silu => .fin s 0 1
  | .gelu => .fin s 0 1
  | .sin => .fin s 0 1
  | .cos => .fin false 1 1
  | .erf => .fin s 0 1

/-- f(x) at every BF16 value (R89, Table 5-6). -/
def SpecialFn.eval (f : SpecialFn) (x : Num) : Num :=
  match x with
  | .nan => .nan
  | .inf s => f.atInf s
  | .fin s n d => if n = 0 then f.atZero s else f.atFinite s n d

end Sys2Proof.Machine
end

