-- ==== Sys2Proof/Machine/Alu.lean ====
section
/-! DEFINITION. Scalar and vector arithmetic as functions of operand values (04_control_scalar.md R114 to R119; 05_vector.md R138 to R163). -/

namespace Sys2Proof.Machine

open Sys2Proof

/-- Leading zeros of the low `w` bits. -/
def clzBits (w x : Nat) : Nat :=
  let x := x % 2 ^ w
  if x = 0 then w else w - 1 - Nat.log2 x

def popcBits : Nat → Nat → Nat
  | 0, _ => 0
  | w + 1, x => x % 2 + popcBits w (x / 2)

/-- Trailing zeros of the low `w` bits. -/
def ctzBits : Nat → Nat → Nat
  | 0, _ => 0
  | w + 1, x => if x % 2 = 1 then 0 else ctzBits w (x / 2) + 1

/-- The eight bytes of a value in reverse order (BSWAP). -/
def byteSwap (x : W64) : W64 :=
  BitVec.ofNat 64 (packElems 8 ((List.range 8).map fun i => elemAt x.toNat 8 (7 - i)))

def widthBits : Width → Nat
  | .e8 => 8
  | .e16 => 16
  | .e32 => 32

def sextTo64 (w : Nat) (x : W64) : W64 := BitVec.ofInt 64 (sInt w (x.toNat % 2 ^ w))

def zextTo64 (w : Nat) (x : W64) : W64 := BitVec.ofNat 64 (x.toNat % 2 ^ w)

def boolTo64 (b : Bool) : W64 := if b then 1 else 0

/-- Scalar two-operand operations (Table 4-7). -/
inductive SAlu where
  | add | sub | mul | mulh | mulhu | and | or | xor | andn | orn | shl | shr | sra | rol | min | max | minu | maxu
  | slt | sltu | seq | sne
  deriving DecidableEq, Repr

/-- sD of Table 4-7. -/
def SAlu.eval (o : SAlu) (a b : W64) : W64 :=
  match o with
  | .add => a + b
  | .sub => a - b
  | .mul => a * b
  | .mulh => BitVec.ofInt 64 (a.toInt * b.toInt / (2 ^ 64 : Nat))
  | .mulhu => BitVec.ofNat 64 (a.toNat * b.toNat / 2 ^ 64)
  | .and => a &&& b
  | .or => a ||| b
  | .xor => a ^^^ b
  | .andn => a &&& ~~~b
  | .orn => a ||| ~~~b
  | .shl => a <<< (b.toNat % 64)
  | .shr => a >>> (b.toNat % 64)
  | .sra => a.sshiftRight (b.toNat % 64)
  | .rol => a.rotateLeft (b.toNat % 64)
  | .min => if b.toInt < a.toInt then b else a
  | .max => if a.toInt < b.toInt then b else a
  | .minu => if b.toNat < a.toNat then b else a
  | .maxu => if a.toNat < b.toNat then b else a
  | .slt => boolTo64 (decide (a.toInt < b.toInt))
  | .sltu => boolTo64 (decide (a.toNat < b.toNat))
  | .seq => boolTo64 (a == b)
  | .sne => boolTo64 (a != b)

/-- MUL, MULH, MULHU and MULI land at latency 3, every other scalar form at 1 (R114). -/
def SAlu.latency : SAlu → Nat
  | .mul => 3
  | .mulh => 3
  | .mulhu => 3
  | .add => 1 | .sub => 1 | .and => 1 | .or => 1 | .xor => 1 | .andn => 1 | .orn => 1 | .shl => 1 | .shr => 1 | .sra => 1 | .rol => 1
  | .min => 1 | .max => 1 | .minu => 1 | .maxu => 1 | .slt => 1 | .sltu => 1 | .seq => 1 | .sne => 1

/-- Atomic operations of R127. -/
inductive Amo where
  | add | and | or | xor | min | max | swp | cas
  deriving DecidableEq, Repr

/-- The new value of a `w`-byte word (R127): the operand is compared as the 64-bit number it is, and the result is cut to the word's width.
`cmp` is AMCAS's comparand. -/
def Amo.eval (o : Amo) (w old b cmp : Nat) : Nat :=
  let m := 2 ^ (8 * w)
  let s := sInt 64 (b % 2 ^ 64)
  match o with
  | .add => (old + b) % m
  | .and => old &&& b % m
  | .or => old ||| b % m
  | .xor => old ^^^ b % m
  | .min => if s < sInt (8 * w) old then b % m else old
  | .max => if sInt (8 * w) old < s then b % m else old
  | .swp => b % m
  | .cas => if old = cmp % m then b % m else old

/-- Element operations with one rounding or wrap (Tables 5-1, 5-3). -/
inductive VAlu where
  | add | sub | mul | mulh | adds | subs | min | max | abs | neg | and | or | xor | not | shl | shr | sra | avg | absd | clz | popc
  deriving DecidableEq, Repr

/-- log2 of a bit width. -/
def shiftMask (w x : Nat) : Nat := x % w

/-- Integer element result (Table 5-1). -/
def VAlu.int (o : VAlu) (s : Bool) (w a b : Nat) : Nat × Option Ev :=
  let ai := asInt s w a
  let bi := asInt s w b
  match o with
  | .add => (wrapInt w (ai + bi), none)
  | .sub => (wrapInt w (ai - bi), none)
  | .mul => (wrapInt w (ai * bi), none)
  | .mulh => (wrapInt w (ai * bi / (2 ^ w : Nat)), none)
  | .adds => satInt s w (ai + bi)
  | .subs => satInt s w (ai - bi)
  | .min => (if bi < ai then b else a, none)
  | .max => (if ai < bi then b else a, none)
  | .abs => (wrapInt w ai.natAbs, none)
  | .neg => (wrapInt w (-ai), none)
  | .and => (a &&& b, none)
  | .or => (a ||| b, none)
  | .xor => (a ^^^ b, none)
  | .not => (2 ^ w - 1 - a, none)
  | .shl => (a * 2 ^ (shiftMask w b) % 2 ^ w, none)
  | .shr => (a / 2 ^ (shiftMask w b), none)
  | .sra => (wrapInt w (sInt w a / (2 ^ (shiftMask w b) : Nat)), none)
  | .avg => (wrapInt w ((ai + bi + 1) / 2), none)
  | .absd => ((ai - bi).natAbs, none)
  | .clz => (clzBits w a, none)
  | .popc => (popcBits w a, none)

/-- Floating-point element result, computed exactly and rounded once (R88); the integer-only operations do not occur. -/
def VAlu.flt (o : VAlu) (f : Fmt) (m : Rnd) (a b : Nat) : Nat × Option Ev :=
  let x := f.decode (a % 2 ^ f.width)
  let y := f.decode (b % 2 ^ f.width)
  match o with
  | .add => f.round m (x.add y)
  | .sub => f.round m (x.sub y)
  | .mul => f.round m (x.mul y)
  | .min => f.round m (x.min y)
  | .max => f.round m (x.max y)
  | .abs => f.round m x.abs
  | .neg => f.round m x.neg
  | .absd => f.round m (x.sub y).abs
  | .mulh | .adds | .subs | .and | .or | .xor | .not | .shl | .shr | .sra | .avg | .clz | .popc => (a, none)

def VAlu.elem (o : VAlu) (t : ETy) (m : Rnd) (a b : Nat) : Nat × Option Ev :=
  match t with
  | .int s n => o.int s (8 * n) a b
  | .flt f _ => o.flt f m a b

/-- VFMA, VFMS, VFNMA, VFNMS: ±a × b ± c rounded once (R88, R139). -/
def fmaElem (f : Fmt) (m : Rnd) (negProd negC : Bool) (a b c : Nat) : Nat × Option Ev :=
  let p := (f.decode (a % 2 ^ f.width)).mul (f.decode (b % 2 ^ f.width))
  let z := f.decode (c % 2 ^ f.width)
  f.round m ((if negProd then p.neg else p).add (if negC then z.neg else z))

/-- A vector result: the new register and the events of its elements. -/
structure VRes where
  v : Nat
  evs : List EvSum
  deriving DecidableEq, Repr

/-- Writes the elements of width `bits` that `on` selects; every other element keeps its old value (R40). -/
def writeElems (bits old : Nat) (on : Nat → Bool) (f : Nat → Nat × Option Ev) : VRes :=
  let l := (List.range (2048 / bits)).map fun i => if on i then f i else (elemAt old bits i, none)
  ⟨packElems bits (l.map Prod.fst), summarize ((l.zipIdx).filterMap fun p => p.1.2.map fun e => (p.2, e))⟩

/-- Element-wise result over the enabled elements (R28, R134). -/
def mapElems (vl guard bits old : Nat) (f : Nat → Nat × Option Ev) : VRes :=
  writeElems bits old (elemOn vl guard bits) f

/-- Moves without rounding: the elements of Table 5-5. -/
inductive VMove where
  | perm | zip | unzip | slide | rev
  deriving DecidableEq, Repr

/-- Element `i` of a moved register (Table 5-5); the sources are already masked under R133. -/
def VMove.elem (o : VMove) (bits vl a b i : Nat) : Nat :=
  let n := 2048 / bits
  let k := elemsBelow vl bits
  match o with
  | .perm => elemAt a bits (elemAt b bits i % n)
  | .zip => if i % 2 = 0 then elemAt a bits (i / 2) else elemAt b bits ((i - 1) / 2)
  | .unzip => if i < n / 2 then elemAt a bits (2 * i) else elemAt b bits (2 * i - n)
  | .slide => if i + 1 < k then elemAt a bits (i + 1) else elemAt b bits 0
  | .rev => elemAt a bits (k - 1 - i)

/-- The wider type of VWIDEN, VUNPACK, VSUMW and VDOT2 (R145, R146). -/
def ETy.wider : ETy → ETy
  | .int s b => .int s (2 * b)
  | .flt _ _ => .flt .fp32 4

/-- VWIDEN and VUNPACK: element of the source extended, or BF16 converted exactly to FP32 (R145). -/
def widenElem (t : ETy) (x : Nat) : Nat × Option Ev :=
  match t with
  | .int s b => (wrapInt (16 * b) (asInt s (8 * b) x), none)
  | .flt f _ => Fmt.fp32.round .rne (f.decode (x % 2 ^ f.width))

/-- VNARROW of one source element into type `t` (R145). -/
def narrowElem (t : ETy) (x : Nat) : Nat × Option Ev :=
  match t with
  | .int s b => satInt s (8 * b) (sInt (16 * b) x)
  | .flt f _ => f.round .rne (Fmt.fp32.decode x)

/-- VDOT2 of one pair (R146). -/
def dot2Elem (t : ETy) (a0 b0 a1 b1 : Nat) : Nat × Option Ev :=
  match t with
  | .int s b =>
    let w := 8 * b
    satInt s (2 * w) (asInt s w a0 * asInt s w b0 + asInt s w a1 * asInt s w b1)
  | .flt f _ =>
    let p := ((f.decode a0).mul (f.decode b0)).fp32
    let q := ((f.decode a1).mul (f.decode b1)).fp32
    let r := Fmt.fp32.round .rne (p.1.add q.1)
    (r.1, firstEv (firstEv p.2 q.2) r.2)

/-- Reductions of R147. -/
inductive VRed where
  | sum | max | min
  deriving DecidableEq, Repr

/-- The value of element 0 of a reduction over the enabled source elements, with the width in bits it is written at (R85 to R87, R147). -/
def VRed.eval (o : VRed) (t : ETy) (vl guard x : Nat) : Nat × (Nat × Option Ev) :=
  let bits := t.bits
  let idx := List.range (elemsBelow vl bits)
  let on := idx.filter fun i => elemOn vl guard bits i
  match t with
  | .int s b =>
    let vals := on.map fun i => asInt s (8 * b) (elemAt x bits i)
    match o with
    | .sum => (32, satInt s 32 (vals.foldl (· + ·) 0))
    | .max => (bits, (wrapInt bits (vals.foldl (fun m v => if m < v then v else m) (vals.headD 0)), none))
    | .min => (bits, (wrapInt bits (vals.foldl (fun m v => if v < m then v else m) (vals.headD 0)), none))
  | .flt f _ =>
    let val := fun i => f.decode (elemAt x bits i % 2 ^ f.width)
    match o with
    | .sum =>
      let wide := fun i => f.widen (elemAt x bits i % 2 ^ f.width)
      let s := treeSum (idx.map fun i => if elemOn vl guard bits i then wide i else .fin true 0 1)
      let r := f.round .rne s.1
      (bits, r.1, firstEv s.2 r.2)
    | .max =>
      let vals := on.map val
      (bits, f.round .rne (vals.foldl Num.max (vals.headD .nan)))
    | .min =>
      let vals := on.map val
      (bits, f.round .rne (vals.foldl Num.min (vals.headD .nan)))

/-- A conversion under Table 5-7: whether the scale divides, multiplies or is not used (R152). -/
def cvtElem (ts td : ETy) (scale : Num) (m : Rnd) (x : Nat) : Nat × Option Ev :=
  let v := ts.value x
  let wide := fun (t : ETy) => match t with | .flt _ b => decide (b ≥ 2) | .int _ _ => false
  let zero := match scale with | .fin _ 0 _ => true | _ => false
  if wide ts == wide td then td.round m v
  else if scale.isNan then td.round m .nan
  else if zero then (0, some .zscale)
  else td.round m (if wide ts then v.divBy scale else v.mul scale)

/-- VSCALE: vA × 2^k with k the signed element of vB (R148). -/
def vscaleElem (f : Fmt) (bits a b : Nat) : Nat × Option Ev :=
  f.round .rne ((f.decode (a % 2 ^ f.width)).mulPow2 (sInt bits b))

/-- The greatest finite integral value of a format: its largest finite value without its fraction. -/
def Fmt.topIntegral (f : Fmt) : Nat := let v := f.magValue f.maxMag; v.1 / v.2

/-- VROUND and VFLOOR (R148): an integral value of T, so one beyond the greatest of T becomes that one; they post no OVF or UNF. VFLOOR of a
value below every integral value of T has no result in the spec: a free code (DESIGN CHOICE, log 60). -/
def integralElem (floor : Bool) (f : Fmt) (a : Nat) : Nat × Option Ev :=
  let c := a % 2 ^ f.width
  match (f.decode c).toIntegral floor with
  | .fin s n d =>
    if n > f.topIntegral * d then
      if s && floor then (Config.floorCode c % 2 ^ f.width, none) else ((f.round .rne (.fin s f.topIntegral 1)).1, none)
    else ((f.round .rne (.fin s n d)).1, none)
  | x => let r := f.round .rne x; (r.1, match r.2 with | some .ovf => none | e => e)

/-- The state after k steps of the Sapling expander (R158). -/
def seedState : Nat → Nat → Nat
  | 0, s => s
  | k + 1, s => seedState k (if s % 2 = 1 then (s / 2) ^^^ 0xE10000 else s / 2)

/-- The bits b_s(k), b_s(k + σ), … of a seed stream (R158, R159), n of them. -/
def seedBits : Nat → Nat → Nat → List Bool
  | 0, _, _ => []
  | n + 1, σ, s => (s % 2 == 1) :: seedBits n σ (seedState σ s)

/-- The values of a K0-based stream: +1 or −1, and 0 for the all-zero seed. The stream has period 2^24 − 1, which K0 is reduced by. -/
def seedValues (n k0 σ seed : Nat) : List Int :=
  if seed % 2 ^ 24 = 0 then List.replicate n 0
  else (seedBits n σ (seedState (k0 % (2 ^ 24 - 1)) (seed % 2 ^ 24))).map fun b => if b then 1 else -1

/-- +1, −1 or 0 written in type `t` (R159). -/
def signCode (t : ETy) (v : Int) : Nat :=
  match t with
  | .int _ b => wrapInt (8 * b) v
  | .flt f _ => (f.round .rne (.ofInt v)).1

end Sys2Proof.Machine
end

