-- ==== Sys2Proof/Decode.lean ====
section
/-! DEFINITION. The decoder of slot words and the encoder (02_encodings.md R46 to R55, R61, R62; 14_package.md R368, R371).
Words are natural numbers below 2^32. -/

namespace Sys2Proof

/-- Why a slot word is refused, before its bundle issues (SLOT_ILLEGAL; `legacy` raises LEGACY). -/
inductive Reject where
  /-- No opcode of the class has this value, or the generation or profile lacks it (R53, R62, R368). -/
  | unassigned
  /-- A withdrawn opcode of G1 and G2 (R62). -/
  | legacy
  /-- A bit the instruction gives no use is set (R48, R54). -/
  | reservedBits
  /-- A register field or a coded field holds a value it may not hold (R47, R51). -/
  | badField
  /-- The extension word is missing or superfluous (R20). -/
  | extension
  /-- The fields are valid one by one and not permitted for this instruction (R51, R116, R135). -/
  | notPermitted
  deriving DecidableEq, Repr

/-- Field of `n` bits at bit `lo` of a word. -/
def fld (w lo n : Nat) : Nat := w / 2 ^ lo % 2 ^ n

/-- A number below `k`, as most register fields must be (R47). -/
def decFin (k n : Nat) : Except Reject (Fin k) :=
  if h : n < k then .ok ⟨n, h⟩ else .error .badField

/-- Field value 1 to 3 names sk1 to sk3 (R47). -/
def decSk (n : Nat) : Except Reject (Fin 3) :=
  if h : 1 ≤ n ∧ n ≤ 3 then .ok ⟨n - 1, by omega⟩ else .error .badField

def decTy : Nat → Except Reject Ty
  | 0 => .ok .i8 | 1 => .ok .i16 | 2 => .ok .i32 | 3 => .ok .u8 | 4 => .ok .u16 | 5 => .ok .u32
  | 6 => .ok .bf16 | 7 => .ok .f32 | 8 => .ok (.nf 0) | 9 => .ok (.nf 1) | 10 => .ok (.nf 2) | 11 => .ok (.nf 3)
  | 12 => .ok .e5m3 | _ => .error .badField

def encTy : Ty → Nat
  | .i8 => 0 | .i16 => 1 | .i32 => 2 | .u8 => 3 | .u16 => 4 | .u32 => 5 | .bf16 => 6 | .f32 => 7
  | .nf f => 8 + f.val | .e5m3 => 12

def decRm : Nat → Except Reject Rm
  | 0 => .ok .rne | 1 => .ok .rtz | 2 => .ok .rs | _ => .error .badField

def encRm : Rm → Nat
  | .rne => 0 | .rtz => 1 | .rs => 2

def decScope : Nat → Except Reject Scope
  | 0 => .ok .c | 1 => .ok .k | 2 => .ok .d | 3 => .ok .p | 4 => .ok .s | _ => .error .badField

def encScope : Scope → Nat
  | .c => 0 | .k => 1 | .d => 2 | .p => 3 | .s => 4

def decWidth : Nat → Except Reject Width
  | 0 => .ok .e8 | 1 => .ok .e16 | 2 => .ok .e32 | _ => .error .badField

def encWidth : Width → Nat
  | .e8 => 0 | .e16 => 1 | .e32 => 2

def decEng : Nat → Except Reject Eng
  | 0 => .ok .v0 | 1 => .ok .v1 | 2 => .ok .m | 3 => .ok .y0 | 4 => .ok .y1 | _ => .error .badField

def encEng : Eng → Nat
  | .v0 => 0 | .v1 => 1 | .m => 2 | .y0 => 3 | .y1 => 4

/-- A field value placed at bit `lo`. -/
def put (lo n : Nat) : Nat := n * 2 ^ lo

def bit1 (b : Bool) : Nat := if b then 1 else 0

/-- Bits [24:21] of a slot word (Table 1-6). -/
def decGuard (w : Nat) : Guard := ⟨fld w 24 1 == 1, ⟨fld w 21 3, Nat.mod_lt _ (by decide)⟩⟩

def encGuard (g : Guard) : Nat := 8 * bit1 g.inv + g.p.val

/-- The bits of a word outside a list of fields (lowest bit, width) must be zero (R48). -/
def zeros (w : Nat) : List (Nat × Nat) → Except Reject Unit
  | [] => .ok ()
  | (lo, n) :: l => if fld w lo n = 0 then zeros w l else .error .reservedBits

def noExt : Option Nat → Except Reject Unit
  | none => .ok ()
  | some _ => .error .extension

def needExt : Option Nat → Except Reject Nat
  | some x => .ok x
  | none => .error .extension

/-- Slot words of the control class (02_encodings.md Tables 2-1, 2-2, 2-4 to 2-8), the guard apart. -/
def decodeControl (w : Nat) (x : Option Nat) : Except Reject ControlOp :=
  match w / 2 ^ 25 with
  | 0x00 => do noExt x; zeros w [(0, 25)]; pure .cnop
  | 0x01 => do noExt x; zeros w [(0, 18)]; let bt ← decFin 8 (fld w 18 3); pure (.br bt)
  | 0x02 => do noExt x; zeros w [(0, 14)]; let bt ← decFin 8 (fld w 18 3); let neg := fld w 17 1 == 1; let ps ← decFin 8 (fld w 14 3); pure (.brp bt neg ps)
  | 0x03 => do noExt x; zeros w [(0, 12), (14, 4)]; let bt ← decFin 8 (fld w 18 3); let lc ← decFin 4 (fld w 12 2); pure (.brlc bt lc)
  | 0x04 => do noExt x; zeros w [(0, 9), (12, 6)]; let bt ← decFin 8 (fld w 18 3); let bl ← decFin 8 (fld w 9 3); pure (.brl bt bl)
  | 0x05 => do noExt x; zeros w [(0, 11), (16, 5)]; let a ← decFin 32 (fld w 11 5); pure (.brx a)
  | 0x06 => do noExt x; zeros w [(0, 21)]; pure .halt
  | 0x07 => do noExt x; zeros w [(16, 5)]; let n := BitVec.ofNat 16 (fld w 0 16); pure (.delay n)
  | 0x08 => do noExt x; let bd ← decFin 8 (fld w 18 3); let i := BitVec.ofNat 18 (fld w 0 18); pure (.pbr bd i)
  | 0x09 => do noExt x; zeros w [(0, 11)]; let d ← decFin 8 (fld w 16 5); let a ← decFin 32 (fld w 11 5); pure (.pbrs d a)
  | 0x0A => do noExt x; zeros w [(0, 11)]; let d ← decFin 32 (fld w 16 5); let a ← decFin 8 (fld w 11 5); pure (.bget d a)
  | 0x0B => do noExt x; zeros w [(3, 13)]; let d ← decFin 8 (fld w 16 5); let e ← decEng (fld w 0 3); pure (.btok d e)
  | 0x0C => do noExt x; let d ← decFin 4 (fld w 16 5); let n := BitVec.ofNat 16 (fld w 0 16); pure (.lcset d n)
  | 0x0D => do noExt x; zeros w [(0, 11)]; let d ← decFin 4 (fld w 16 5); let a ← decFin 32 (fld w 11 5); pure (.lcsets d a)
  | 0x0E => do noExt x; zeros w [(0, 11)]; let d ← decFin 32 (fld w 16 5); let a ← decFin 4 (fld w 11 5); pure (.lcget d a)
  | 0x0F => do noExt x; zeros w [(1, 15)]; let d ← decSk (fld w 16 5); let n := fld w 0 1 == 1; pure (.skset d n)
  | 0x10 => do noExt x; zeros w [(0, 11)]; let d ← decSk (fld w 16 5); let a ← decFin 32 (fld w 11 5); pure (.sksets d a)
  | 0x11 => do noExt x; zeros w [(0, 11)]; let d ← decFin 32 (fld w 16 5); let a ← decSk (fld w 11 5); pure (.skget d a)
  | 0x12 => do noExt x; zeros w [(0, 6)]; let d ← decFin 4 (fld w 16 5); let a ← decFin 32 (fld w 11 5); let b ← decFin 32 (fld w 6 5); pure (.shape d a b)
  | 0x13 => do let e ← needExt x; zeros w [(0, 11)]; let d ← decFin 4 (fld w 16 5); let a ← decFin 32 (fld w 11 5); let imm := BitVec.ofNat 32 (fld e 0 32); pure (.shapex d a imm)
  | 0x14 => do noExt x; zeros w [(0, 11)]; let d ← decFin 32 (fld w 16 5); let a ← decFin 4 (fld w 11 5); pure (.shget d a)
  | 0x15 => do noExt x; zeros w [(0, 11)]; let d ← decFin 4 (fld w 16 5); let a ← decFin 32 (fld w 11 5); pure (.fdset d a)
  | 0x16 => do noExt x; zeros w [(0, 11)]; let d ← decFin 32 (fld w 16 5); let a ← decFin 4 (fld w 11 5); pure (.fdget d a)
  | 0x18 => do noExt x; zeros w [(0, 11)]; let d ← decFin 16 (fld w 16 5); let a ← decFin 32 (fld w 11 5); pure (.hinit d a)
  | 0x19 => do noExt x; zeros w [(11, 5)]; let d ← decFin 16 (fld w 16 5); let n := BitVec.ofNat 11 (fld w 0 11); pure (.hwait d n)
  | 0x1A => do noExt x; zeros w [(11, 5)]; let d ← decFin 16 (fld w 16 5); let n := BitVec.ofNat 11 (fld w 0 11); pure (.hres d n)
  | 0x1B => do noExt x; zeros w [(11, 5)]; let d ← decFin 16 (fld w 16 5); let n := BitVec.ofNat 11 (fld w 0 11); pure (.hadv d n)
  | 0x1C => do noExt x; zeros w [(0, 11)]; let d ← decFin 16 (fld w 16 5); let a ← decFin 32 (fld w 11 5); pure (.hcommit d a)
  | 0x1D => do noExt x; zeros w [(0, 11)]; let d ← decFin 32 (fld w 16 5); let a ← decFin 16 (fld w 11 5); pure (.hget d a)
  | 0x1E => do noExt x; zeros w [(0, 11)]; let d ← decFin 32 (fld w 16 5); let a ← decFin 16 (fld w 11 5); pure (.hstat d a)
  | 0x1F => do noExt x; zeros w [(5, 16)]; let m := BitVec.ofNat 5 (fld w 0 5); pure (.qfence m)
  | 0x20 => do noExt x; zeros w [(16, 5)]; let a ← decFin 32 (fld w 11 5); let n := BitVec.ofNat 11 (fld w 0 11); pure (.barinit a n)
  | 0x21 => do noExt x; zeros w [(11, 5), (19, 2)]; let sc ← decScope (fld w 16 3); let n := BitVec.ofNat 11 (fld w 0 11); pure (.bararv sc n)
  | 0x22 => do noExt x; zeros w [(11, 5), (19, 2)]; let sc ← decScope (fld w 16 3); let n := BitVec.ofNat 11 (fld w 0 11); pure (.barwait sc n)
  | 0x23 => do noExt x; zeros w [(3, 8), (16, 5)]; let a ← decFin 32 (fld w 11 5); let sc ← decScope (fld w 0 3); pure (.barrem a sc)
  | 0x24 => do noExt x; zeros w [(0, 11), (16, 5)]; let a ← decFin 32 (fld w 11 5); pure (.gjoin a)
  | 0x25 => do noExt x; zeros w [(0, 11), (16, 5)]; let a ← decFin 32 (fld w 11 5); pure (.gleave a)
  | 0x26 => do noExt x; zeros w [(3, 3), (16, 5)]; let a ← decFin 32 (fld w 11 5); let b ← decFin 32 (fld w 6 5); let k ← decFin 8 (fld w 0 3); pure (.lpatch a b k)
  | 0x27 => do noExt x; zeros w [(0, 11)]; let d ← decFin 32 (fld w 16 5); let a ← decFin 32 (fld w 11 5); pure (.larm d a)
  | 0x28 => do noExt x; zeros w [(0, 11), (16, 5)]; let a ← decFin 16 (fld w 11 5); pure (.lwait a)
  | 0x30 => do noExt x; zeros w [(16, 5)]; let n := BitVec.ofNat 16 (fld w 0 16); pure (.trap n)
  | 0x31 => do noExt x; zeros w [(0, 21)]; pure .rft
  | 0x32 => do noExt x; zeros w [(16, 5)]; let n := BitVec.ofNat 16 (fld w 0 16); pure (.brk n)
  | 0x33 => do noExt x; zeros w [(11, 5)]; let d ← decFin 32 (fld w 16 5); let n := BitVec.ofNat 11 (fld w 0 11); pure (.csrrd d n)
  | 0x34 => do noExt x; zeros w [(16, 5)]; let a ← decFin 32 (fld w 11 5); let n := BitVec.ofNat 11 (fld w 0 11); pure (.csrwr a n)
  | 0x35 => do noExt x; zeros w [(16, 5)]; let a ← decFin 32 (fld w 11 5); let n := BitVec.ofNat 11 (fld w 0 11); pure (.csrset a n)
  | 0x36 => do noExt x; zeros w [(16, 5)]; let a ← decFin 32 (fld w 11 5); let n := BitVec.ofNat 11 (fld w 0 11); pure (.csrclr a n)
  | 0x37 => do noExt x; zeros w [(16, 5)]; let n := BitVec.ofNat 16 (fld w 0 16); pure (.scall n)
  | 0x38 => do noExt x; zeros w [(0, 21)]; pure .sret
  | 0x39 => do noExt x; zeros w [(0, 21)]; pure .wfi
  | 0x3A => do noExt x; zeros w [(0, 11)]; let d ← decFin 32 (fld w 16 5); let a ← decFin 32 (fld w 11 5); pure (.tbwait d a)
  | _ => .error .unassigned

/-- Slot words of the scalar class (02_encodings.md Tables 2-1, 2-2, 2-4 to 2-8), the guard apart. -/
def decodeScalar (w : Nat) (x : Option Nat) : Except Reject ScalarOp :=
  match w / 2 ^ 25 with
  | 0x00 => do noExt x; zeros w [(0, 25)]; pure .snop
  | 0x01 => do noExt x; zeros w [(0, 6)]; let d ← decFin 32 (fld w 16 5); let a ← decFin 32 (fld w 11 5); let b ← decFin 32 (fld w 6 5); pure (.add d a b)
  | 0x02 => do noExt x; zeros w [(0, 6)]; let d ← decFin 32 (fld w 16 5); let a ← decFin 32 (fld w 11 5); let b ← decFin 32 (fld w 6 5); pure (.sub d a b)
  | 0x03 => do noExt x; zeros w [(0, 6)]; let d ← decFin 32 (fld w 16 5); let a ← decFin 32 (fld w 11 5); let b ← decFin 32 (fld w 6 5); pure (.mul d a b)
  | 0x04 => do noExt x; zeros w [(0, 6)]; let d ← decFin 32 (fld w 16 5); let a ← decFin 32 (fld w 11 5); let b ← decFin 32 (fld w 6 5); pure (.mulh d a b)
  | 0x05 => do noExt x; zeros w [(0, 6)]; let d ← decFin 32 (fld w 16 5); let a ← decFin 32 (fld w 11 5); let b ← decFin 32 (fld w 6 5); pure (.mulhu d a b)
  | 0x06 => do noExt x; zeros w [(0, 6)]; let d ← decFin 32 (fld w 16 5); let a ← decFin 32 (fld w 11 5); let b ← decFin 32 (fld w 6 5); pure (.and d a b)
  | 0x07 => do noExt x; zeros w [(0, 6)]; let d ← decFin 32 (fld w 16 5); let a ← decFin 32 (fld w 11 5); let b ← decFin 32 (fld w 6 5); pure (.or d a b)
  | 0x08 => do noExt x; zeros w [(0, 6)]; let d ← decFin 32 (fld w 16 5); let a ← decFin 32 (fld w 11 5); let b ← decFin 32 (fld w 6 5); pure (.xor d a b)
  | 0x09 => do noExt x; zeros w [(0, 6)]; let d ← decFin 32 (fld w 16 5); let a ← decFin 32 (fld w 11 5); let b ← decFin 32 (fld w 6 5); pure (.andn d a b)
  | 0x0A => do noExt x; zeros w [(0, 6)]; let d ← decFin 32 (fld w 16 5); let a ← decFin 32 (fld w 11 5); let b ← decFin 32 (fld w 6 5); pure (.orn d a b)
  | 0x0B => do noExt x; zeros w [(0, 6)]; let d ← decFin 32 (fld w 16 5); let a ← decFin 32 (fld w 11 5); let b ← decFin 32 (fld w 6 5); pure (.shl d a b)
  | 0x0C => do noExt x; zeros w [(0, 6)]; let d ← decFin 32 (fld w 16 5); let a ← decFin 32 (fld w 11 5); let b ← decFin 32 (fld w 6 5); pure (.shr d a b)
  | 0x0D => do noExt x; zeros w [(0, 6)]; let d ← decFin 32 (fld w 16 5); let a ← decFin 32 (fld w 11 5); let b ← decFin 32 (fld w 6 5); pure (.sra d a b)
  | 0x0E => do noExt x; zeros w [(0, 6)]; let d ← decFin 32 (fld w 16 5); let a ← decFin 32 (fld w 11 5); let b ← decFin 32 (fld w 6 5); pure (.rol d a b)
  | 0x0F => do noExt x; zeros w [(0, 6)]; let d ← decFin 32 (fld w 16 5); let a ← decFin 32 (fld w 11 5); let b ← decFin 32 (fld w 6 5); pure (.min d a b)
  | 0x10 => do noExt x; zeros w [(0, 6)]; let d ← decFin 32 (fld w 16 5); let a ← decFin 32 (fld w 11 5); let b ← decFin 32 (fld w 6 5); pure (.max d a b)
  | 0x11 => do noExt x; zeros w [(0, 6)]; let d ← decFin 32 (fld w 16 5); let a ← decFin 32 (fld w 11 5); let b ← decFin 32 (fld w 6 5); pure (.minu d a b)
  | 0x12 => do noExt x; zeros w [(0, 6)]; let d ← decFin 32 (fld w 16 5); let a ← decFin 32 (fld w 11 5); let b ← decFin 32 (fld w 6 5); pure (.maxu d a b)
  | 0x13 => do noExt x; zeros w [(0, 6)]; let d ← decFin 32 (fld w 16 5); let a ← decFin 32 (fld w 11 5); let b ← decFin 32 (fld w 6 5); pure (.slt d a b)
  | 0x14 => do noExt x; zeros w [(0, 6)]; let d ← decFin 32 (fld w 16 5); let a ← decFin 32 (fld w 11 5); let b ← decFin 32 (fld w 6 5); pure (.sltu d a b)
  | 0x15 => do noExt x; zeros w [(0, 6)]; let d ← decFin 32 (fld w 16 5); let a ← decFin 32 (fld w 11 5); let b ← decFin 32 (fld w 6 5); pure (.seq d a b)
  | 0x16 => do noExt x; zeros w [(0, 6)]; let d ← decFin 32 (fld w 16 5); let a ← decFin 32 (fld w 11 5); let b ← decFin 32 (fld w 6 5); pure (.sne d a b)
  | 0x17 => do noExt x; zeros w [(0, 11)]; let d ← decFin 32 (fld w 16 5); let a ← decFin 32 (fld w 11 5); pure (.clz d a)
  | 0x18 => do noExt x; zeros w [(0, 11)]; let d ← decFin 32 (fld w 16 5); let a ← decFin 32 (fld w 11 5); pure (.mov d a)
  | 0x19 => do noExt x; zeros w [(0, 11)]; let d ← decFin 32 (fld w 16 5); let a ← decFin 32 (fld w 11 5); pure (.ctz d a)
  | 0x1A => do noExt x; zeros w [(0, 11)]; let d ← decFin 32 (fld w 16 5); let a ← decFin 32 (fld w 11 5); pure (.popc d a)
  | 0x1B => do noExt x; zeros w [(2, 9)]; let d ← decFin 32 (fld w 16 5); let a ← decFin 32 (fld w 11 5); let w ← decWidth (fld w 0 2); pure (.sext d a w)
  | 0x1C => do noExt x; zeros w [(2, 9)]; let d ← decFin 32 (fld w 16 5); let a ← decFin 32 (fld w 11 5); let w ← decWidth (fld w 0 2); pure (.zext d a w)
  | 0x1D => do noExt x; let d ← decFin 32 (fld w 16 5); let a ← decFin 32 (fld w 11 5); let i := BitVec.ofNat 11 (fld w 0 11); pure (.addi d a i)
  | 0x1E => do noExt x; let d ← decFin 32 (fld w 16 5); let a ← decFin 32 (fld w 11 5); let i := BitVec.ofNat 11 (fld w 0 11); pure (.muli d a i)
  | 0x1F => do noExt x; let d ← decFin 32 (fld w 16 5); let a ← decFin 32 (fld w 11 5); let i := BitVec.ofNat 11 (fld w 0 11); pure (.andi d a i)
  | 0x20 => do noExt x; let d ← decFin 32 (fld w 16 5); let a ← decFin 32 (fld w 11 5); let i := BitVec.ofNat 11 (fld w 0 11); pure (.ori d a i)
  | 0x21 => do noExt x; let d ← decFin 32 (fld w 16 5); let a ← decFin 32 (fld w 11 5); let i := BitVec.ofNat 11 (fld w 0 11); pure (.xori d a i)
  | 0x22 => do noExt x; let d ← decFin 32 (fld w 16 5); let a ← decFin 32 (fld w 11 5); let i := BitVec.ofNat 11 (fld w 0 11); pure (.shli d a i)
  | 0x23 => do noExt x; let d ← decFin 32 (fld w 16 5); let a ← decFin 32 (fld w 11 5); let i := BitVec.ofNat 11 (fld w 0 11); pure (.shri d a i)
  | 0x24 => do noExt x; let d ← decFin 32 (fld w 16 5); let a ← decFin 32 (fld w 11 5); let i := BitVec.ofNat 11 (fld w 0 11); pure (.srai d a i)
  | 0x25 => do noExt x; let d ← decFin 32 (fld w 16 5); let a ← decFin 32 (fld w 11 5); let i := BitVec.ofNat 11 (fld w 0 11); pure (.roli d a i)
  | 0x26 => do noExt x; let d ← decFin 32 (fld w 16 5); let a ← decFin 32 (fld w 11 5); let i := BitVec.ofNat 11 (fld w 0 11); pure (.slti d a i)
  | 0x27 => do noExt x; let d ← decFin 32 (fld w 16 5); let a ← decFin 32 (fld w 11 5); let i := BitVec.ofNat 11 (fld w 0 11); pure (.sltui d a i)
  | 0x28 => do noExt x; let d ← decFin 32 (fld w 16 5); let a ← decFin 32 (fld w 11 5); let i := BitVec.ofNat 11 (fld w 0 11); pure (.seqi d a i)
  | 0x29 => do noExt x; let d ← decFin 32 (fld w 16 5); let a ← decFin 32 (fld w 11 5); let i := BitVec.ofNat 11 (fld w 0 11); pure (.mini d a i)
  | 0x2A => do noExt x; let d ← decFin 32 (fld w 16 5); let a ← decFin 32 (fld w 11 5); let i := BitVec.ofNat 11 (fld w 0 11); pure (.maxi d a i)
  | 0x2B => do let e ← needExt x; zeros w [(0, 16)]; let d ← decFin 32 (fld w 16 5); let imm := BitVec.ofNat 32 (fld e 0 32); pure (.li d imm)
  | 0x2C => do let e ← needExt x; zeros w [(0, 16)]; let d ← decFin 32 (fld w 16 5); let imm := BitVec.ofNat 32 (fld e 0 32); pure (.lih d imm)
  | 0x2D => do let e ← needExt x; zeros w [(0, 11)]; let d ← decFin 32 (fld w 16 5); let a ← decFin 32 (fld w 11 5); let imm := BitVec.ofNat 32 (fld e 0 32); pure (.addx d a imm)
  | 0x2E => do let e ← needExt x; zeros w [(0, 11)]; let d ← decFin 32 (fld w 16 5); let a ← decFin 32 (fld w 11 5); let imm := BitVec.ofNat 32 (fld e 0 32); pure (.andx d a imm)
  | 0x2F => do let e ← needExt x; zeros w [(0, 11)]; let d ← decFin 32 (fld w 16 5); let a ← decFin 32 (fld w 11 5); let imm := BitVec.ofNat 32 (fld e 0 32); pure (.orx d a imm)
  | 0x30 => do let e ← needExt x; zeros w [(0, 11)]; let d ← decFin 32 (fld w 16 5); let a ← decFin 32 (fld w 11 5); let imm := BitVec.ofNat 32 (fld e 0 32); pure (.xorx d a imm)
  | 0x31 => do noExt x; zeros w [(0, 11)]; let d ← decFin 8 (fld w 16 5); let a ← decFin 32 (fld w 11 5); pure (.spset d a)
  | 0x32 => do noExt x; zeros w [(0, 11)]; let d ← decFin 32 (fld w 16 5); let a ← decFin 8 (fld w 11 5); pure (.spany d a)
  | 0x33 => do noExt x; zeros w [(0, 11)]; let d ← decFin 32 (fld w 16 5); let a ← decFin 8 (fld w 11 5); pure (.spall d a)
  | 0x34 => do noExt x; zeros w [(0, 11)]; let d ← decFin 32 (fld w 16 5); let a ← decFin 8 (fld w 11 5); pure (.spcnt d a)
  | 0x35 => do noExt x; zeros w [(0, 16)]; let d ← decFin 32 (fld w 16 5); pure (.scyc d)
  | 0x36 => do noExt x; zeros w [(0, 16)]; let d ← decFin 32 (fld w 16 5); pure (.svl d)
  | 0x37 => do noExt x; zeros w [(0, 11)]; let d ← decFin 32 (fld w 16 5); let a ← decFin 32 (fld w 11 5); pure (.bswap d a)
  | _ => .error .unassigned

/-- Slot words of the address class (02_encodings.md Tables 2-1, 2-2, 2-4 to 2-8), the guard apart. -/
def decodeAddress (w : Nat) (x : Option Nat) : Except Reject AddressOp :=
  match w / 2 ^ 25 with
  | 0x00 => do noExt x; zeros w [(0, 25)]; pure .anop
  | 0x01 => do noExt x; zeros w [(0, 6)]; let d ← decFin 16 (fld w 16 5); let a ← decFin 16 (fld w 11 5); let b ← decFin 32 (fld w 6 5); pure (.aadd d a b)
  | 0x02 => do noExt x; zeros w [(0, 6)]; let d ← decFin 16 (fld w 16 5); let a ← decFin 16 (fld w 11 5); let b ← decFin 32 (fld w 6 5); pure (.asub d a b)
  | 0x03 => do noExt x; zeros w [(0, 6)]; let d ← decFin 16 (fld w 16 5); let a ← decFin 16 (fld w 11 5); let b ← decFin 16 (fld w 6 5); pure (.aadda d a b)
  | 0x04 => do noExt x; zeros w [(0, 11)]; let d ← decFin 16 (fld w 16 5); let a ← decFin 16 (fld w 11 5); pure (.amov d a)
  | 0x05 => do noExt x; zeros w [(0, 11)]; let d ← decFin 16 (fld w 16 5); let a ← decFin 32 (fld w 11 5); pure (.asets d a)
  | 0x06 => do noExt x; zeros w [(0, 11)]; let d ← decFin 32 (fld w 16 5); let a ← decFin 16 (fld w 11 5); pure (.agets d a)
  | 0x07 => do noExt x; let d ← decFin 16 (fld w 16 5); let a ← decFin 16 (fld w 11 5); let i := BitVec.ofNat 11 (fld w 0 11); pure (.aaddi d a i)
  | 0x08 => do let e ← needExt x; zeros w [(0, 16)]; let d ← decFin 16 (fld w 16 5); let imm := BitVec.ofNat 32 (fld e 0 32); pure (.ali d imm)
  | 0x09 => do let e ← needExt x; zeros w [(0, 16)]; let d ← decFin 16 (fld w 16 5); let imm := BitVec.ofNat 32 (fld e 0 32); pure (.alih d imm)
  | 0x0A => do let e ← needExt x; zeros w [(0, 11)]; let d ← decFin 16 (fld w 16 5); let a ← decFin 16 (fld w 11 5); let imm := BitVec.ofNat 32 (fld e 0 32); pure (.aaddx d a imm)
  | 0x10 => do noExt x; let d ← decFin 32 (fld w 16 5); let ab ← decFin 16 (fld w 12 4); let pi := fld w 11 1 == 1; let i := BitVec.ofNat 11 (fld w 0 11); pure (.ldspI8 d ab pi i)
  | 0x11 => do noExt x; let d ← decFin 32 (fld w 16 5); let ab ← decFin 16 (fld w 12 4); let pi := fld w 11 1 == 1; let i := BitVec.ofNat 11 (fld w 0 11); pure (.ldspI16 d ab pi i)
  | 0x12 => do noExt x; let d ← decFin 32 (fld w 16 5); let ab ← decFin 16 (fld w 12 4); let pi := fld w 11 1 == 1; let i := BitVec.ofNat 11 (fld w 0 11); pure (.ldspI32 d ab pi i)
  | 0x13 => do noExt x; let d ← decFin 32 (fld w 16 5); let ab ← decFin 16 (fld w 12 4); let pi := fld w 11 1 == 1; let i := BitVec.ofNat 11 (fld w 0 11); pure (.ldspI64 d ab pi i)
  | 0x14 => do noExt x; let d ← decFin 32 (fld w 16 5); let ab ← decFin 16 (fld w 12 4); let pi := fld w 11 1 == 1; let i := BitVec.ofNat 11 (fld w 0 11); pure (.ldspUi8 d ab pi i)
  | 0x15 => do noExt x; let d ← decFin 32 (fld w 16 5); let ab ← decFin 16 (fld w 12 4); let pi := fld w 11 1 == 1; let i := BitVec.ofNat 11 (fld w 0 11); pure (.ldspUi16 d ab pi i)
  | 0x16 => do noExt x; let d ← decFin 32 (fld w 16 5); let ab ← decFin 16 (fld w 12 4); let pi := fld w 11 1 == 1; let i := BitVec.ofNat 11 (fld w 0 11); pure (.ldspUi32 d ab pi i)
  | 0x17 => do noExt x; let d ← decFin 32 (fld w 16 5); let ab ← decFin 16 (fld w 12 4); let pi := fld w 11 1 == 1; let i := BitVec.ofNat 11 (fld w 0 11); pure (.stspI8 d ab pi i)
  | 0x18 => do noExt x; let d ← decFin 32 (fld w 16 5); let ab ← decFin 16 (fld w 12 4); let pi := fld w 11 1 == 1; let i := BitVec.ofNat 11 (fld w 0 11); pure (.stspI16 d ab pi i)
  | 0x19 => do noExt x; let d ← decFin 32 (fld w 16 5); let ab ← decFin 16 (fld w 12 4); let pi := fld w 11 1 == 1; let i := BitVec.ofNat 11 (fld w 0 11); pure (.stspI32 d ab pi i)
  | 0x1A => do noExt x; let d ← decFin 32 (fld w 16 5); let ab ← decFin 16 (fld w 12 4); let pi := fld w 11 1 == 1; let i := BitVec.ofNat 11 (fld w 0 11); pure (.stspI64 d ab pi i)
  | 0x20 => do noExt x; let d ← decFin 32 (fld w 16 5); let ab ← decFin 16 (fld w 12 4); let pi := fld w 11 1 == 1; let i := BitVec.ofNat 11 (fld w 0 11); pure (.ldgI8 d ab pi i)
  | 0x21 => do noExt x; let d ← decFin 32 (fld w 16 5); let ab ← decFin 16 (fld w 12 4); let pi := fld w 11 1 == 1; let i := BitVec.ofNat 11 (fld w 0 11); pure (.ldgI16 d ab pi i)
  | 0x22 => do noExt x; let d ← decFin 32 (fld w 16 5); let ab ← decFin 16 (fld w 12 4); let pi := fld w 11 1 == 1; let i := BitVec.ofNat 11 (fld w 0 11); pure (.ldgI32 d ab pi i)
  | 0x23 => do noExt x; let d ← decFin 32 (fld w 16 5); let ab ← decFin 16 (fld w 12 4); let pi := fld w 11 1 == 1; let i := BitVec.ofNat 11 (fld w 0 11); pure (.ldgI64 d ab pi i)
  | 0x24 => do noExt x; let d ← decFin 32 (fld w 16 5); let ab ← decFin 16 (fld w 12 4); let pi := fld w 11 1 == 1; let i := BitVec.ofNat 11 (fld w 0 11); pure (.ldgUi8 d ab pi i)
  | 0x25 => do noExt x; let d ← decFin 32 (fld w 16 5); let ab ← decFin 16 (fld w 12 4); let pi := fld w 11 1 == 1; let i := BitVec.ofNat 11 (fld w 0 11); pure (.ldgUi16 d ab pi i)
  | 0x26 => do noExt x; let d ← decFin 32 (fld w 16 5); let ab ← decFin 16 (fld w 12 4); let pi := fld w 11 1 == 1; let i := BitVec.ofNat 11 (fld w 0 11); pure (.ldgUi32 d ab pi i)
  | 0x27 => do noExt x; let d ← decFin 32 (fld w 16 5); let ab ← decFin 16 (fld w 12 4); let pi := fld w 11 1 == 1; let i := BitVec.ofNat 11 (fld w 0 11); pure (.stgI8 d ab pi i)
  | 0x28 => do noExt x; let d ← decFin 32 (fld w 16 5); let ab ← decFin 16 (fld w 12 4); let pi := fld w 11 1 == 1; let i := BitVec.ofNat 11 (fld w 0 11); pure (.stgI16 d ab pi i)
  | 0x29 => do noExt x; let d ← decFin 32 (fld w 16 5); let ab ← decFin 16 (fld w 12 4); let pi := fld w 11 1 == 1; let i := BitVec.ofNat 11 (fld w 0 11); pure (.stgI32 d ab pi i)
  | 0x2A => do noExt x; let d ← decFin 32 (fld w 16 5); let ab ← decFin 16 (fld w 12 4); let pi := fld w 11 1 == 1; let i := BitVec.ofNat 11 (fld w 0 11); pure (.stgI64 d ab pi i)
  | 0x30 => do noExt x; let d ← decFin 32 (fld w 16 5); let ab ← decFin 16 (fld w 12 4); let pi := fld w 11 1 == 1; let i := BitVec.ofNat 11 (fld w 0 11); pure (.ldf d ab pi i)
  | 0x31 => do noExt x; let d ← decFin 32 (fld w 16 5); let ab ← decFin 16 (fld w 12 4); let pi := fld w 11 1 == 1; let i := BitVec.ofNat 11 (fld w 0 11); pure (.ldfe d ab pi i)
  | 0x32 => do noExt x; let d ← decFin 32 (fld w 16 5); let ab ← decFin 16 (fld w 12 4); let pi := fld w 11 1 == 1; let i := BitVec.ofNat 11 (fld w 0 11); pure (.ste d ab pi i)
  | 0x33 => do noExt x; zeros w [(16, 5)]; let ab ← decFin 16 (fld w 12 4); let pi := fld w 11 1 == 1; let i := BitVec.ofNat 11 (fld w 0 11); pure (.feemp ab pi i)
  | 0x34 => do noExt x; let d ← decFin 32 (fld w 16 5); let ab ← decFin 16 (fld w 12 4); let pi := fld w 11 1 == 1; let i := BitVec.ofNat 11 (fld w 0 11); pure (.waita d ab pi i)
  | 0x38 => do noExt x; zeros w [(1, 5)]; let d ← decFin 32 (fld w 16 5); let a ← decFin 16 (fld w 11 5); let b ← decFin 32 (fld w 6 5); let w := fld w 0 1 == 1; pure (.amadd d a b w)
  | 0x39 => do noExt x; zeros w [(1, 5)]; let d ← decFin 32 (fld w 16 5); let a ← decFin 16 (fld w 11 5); let b ← decFin 32 (fld w 6 5); let w := fld w 0 1 == 1; pure (.amand d a b w)
  | 0x3A => do noExt x; zeros w [(1, 5)]; let d ← decFin 32 (fld w 16 5); let a ← decFin 16 (fld w 11 5); let b ← decFin 32 (fld w 6 5); let w := fld w 0 1 == 1; pure (.amor d a b w)
  | 0x3B => do noExt x; zeros w [(1, 5)]; let d ← decFin 32 (fld w 16 5); let a ← decFin 16 (fld w 11 5); let b ← decFin 32 (fld w 6 5); let w := fld w 0 1 == 1; pure (.amxor d a b w)
  | 0x3C => do noExt x; zeros w [(1, 5)]; let d ← decFin 32 (fld w 16 5); let a ← decFin 16 (fld w 11 5); let b ← decFin 32 (fld w 6 5); let w := fld w 0 1 == 1; pure (.ammin d a b w)
  | 0x3D => do noExt x; zeros w [(1, 5)]; let d ← decFin 32 (fld w 16 5); let a ← decFin 16 (fld w 11 5); let b ← decFin 32 (fld w 6 5); let w := fld w 0 1 == 1; pure (.ammax d a b w)
  | 0x3E => do noExt x; zeros w [(1, 5)]; let d ← decFin 32 (fld w 16 5); let a ← decFin 16 (fld w 11 5); let b ← decFin 32 (fld w 6 5); let w := fld w 0 1 == 1; pure (.amswp d a b w)
  | 0x3F => do noExt x; zeros w [(1, 5)]; let d ← decFin 32 (fld w 16 5); let a ← decFin 16 (fld w 11 5); let b ← decFin 32 (fld w 6 5); let w := fld w 0 1 == 1; pure (.amcas d a b w)
  | 0x40 => do noExt x; let d ← decFin 32 (fld w 16 5); let ab ← decFin 16 (fld w 12 4); let sc ← decScope (fld w 9 3); let i := BitVec.ofNat 9 (fld w 0 9); pure (.ldaqI32 d ab sc i)
  | 0x41 => do noExt x; let d ← decFin 32 (fld w 16 5); let ab ← decFin 16 (fld w 12 4); let sc ← decScope (fld w 9 3); let i := BitVec.ofNat 9 (fld w 0 9); pure (.ldaqI64 d ab sc i)
  | 0x42 => do noExt x; let d ← decFin 32 (fld w 16 5); let ab ← decFin 16 (fld w 12 4); let sc ← decScope (fld w 9 3); let i := BitVec.ofNat 9 (fld w 0 9); pure (.strlI32 d ab sc i)
  | 0x43 => do noExt x; let d ← decFin 32 (fld w 16 5); let ab ← decFin 16 (fld w 12 4); let sc ← decScope (fld w 9 3); let i := BitVec.ofNat 9 (fld w 0 9); pure (.strlI64 d ab sc i)
  | 0x44 => do noExt x; zeros w [(0, 21)]; pure .qmark
  | 0x45 => do noExt x; zeros w [(3, 18)]; let sc ← decScope (fld w 0 3); pure (.l1fl sc)
  | 0x46 => do noExt x; zeros w [(3, 18)]; let sc ← decScope (fld w 0 3); pure (.l1inv sc)
  | 0x47 => do noExt x; zeros w [(11, 1), (16, 5)]; let ab ← decFin 16 (fld w 12 4); let i := BitVec.ofNat 11 (fld w 0 11); pure (.l1fll ab i)
  | 0x48 => do noExt x; zeros w [(11, 1), (16, 5)]; let ab ← decFin 16 (fld w 12 4); let i := BitVec.ofNat 11 (fld w 0 11); pure (.l1invl ab i)
  | 0x49 => do noExt x; zeros w [(11, 1), (16, 5)]; let ab ← decFin 16 (fld w 12 4); let i := BitVec.ofNat 11 (fld w 0 11); pure (.ldpf ab i)
  | _ => .error .unassigned

/-- Slot words of the vector class (02_encodings.md Tables 2-1, 2-2, 2-4 to 2-8), the guard apart. -/
def decodeVector (w : Nat) (x : Option Nat) : Except Reject VectorOp :=
  match w / 2 ^ 25 with
  | 0x00 => do noExt x; zeros w [(0, 25)]; pure .vnop
  | 0x01 => do noExt x; let vd ← decFin 32 (fld w 16 5); let va ← decFin 40 (fld w 10 6); let vb ← decFin 40 (fld w 4 6); let t ← decTy (fld w 0 4); pure (.vadd vd va vb t)
  | 0x02 => do noExt x; let vd ← decFin 32 (fld w 16 5); let va ← decFin 40 (fld w 10 6); let vb ← decFin 40 (fld w 4 6); let t ← decTy (fld w 0 4); pure (.vsub vd va vb t)
  | 0x03 => do noExt x; let vd ← decFin 32 (fld w 16 5); let va ← decFin 40 (fld w 10 6); let vb ← decFin 40 (fld w 4 6); let t ← decTy (fld w 0 4); pure (.vmul vd va vb t)
  | 0x04 => do noExt x; let vd ← decFin 32 (fld w 16 5); let va ← decFin 40 (fld w 10 6); let vb ← decFin 40 (fld w 4 6); let t ← decTy (fld w 0 4); pure (.vmulh vd va vb t)
  | 0x05 => do noExt x; let vd ← decFin 32 (fld w 16 5); let va ← decFin 40 (fld w 10 6); let vb ← decFin 40 (fld w 4 6); let t ← decTy (fld w 0 4); pure (.vadds vd va vb t)
  | 0x06 => do noExt x; let vd ← decFin 32 (fld w 16 5); let va ← decFin 40 (fld w 10 6); let vb ← decFin 40 (fld w 4 6); let t ← decTy (fld w 0 4); pure (.vsubs vd va vb t)
  | 0x07 => do noExt x; let vd ← decFin 32 (fld w 16 5); let va ← decFin 40 (fld w 10 6); let vb ← decFin 40 (fld w 4 6); let t ← decTy (fld w 0 4); pure (.vmin vd va vb t)
  | 0x08 => do noExt x; let vd ← decFin 32 (fld w 16 5); let va ← decFin 40 (fld w 10 6); let vb ← decFin 40 (fld w 4 6); let t ← decTy (fld w 0 4); pure (.vmax vd va vb t)
  | 0x09 => do noExt x; zeros w [(4, 6)]; let vd ← decFin 32 (fld w 16 5); let va ← decFin 40 (fld w 10 6); let t ← decTy (fld w 0 4); pure (.vabs vd va t)
  | 0x0A => do noExt x; zeros w [(4, 6)]; let vd ← decFin 32 (fld w 16 5); let va ← decFin 40 (fld w 10 6); let t ← decTy (fld w 0 4); pure (.vneg vd va t)
  | 0x0B => do noExt x; let vd ← decFin 32 (fld w 16 5); let va ← decFin 40 (fld w 10 6); let vb ← decFin 40 (fld w 4 6); let t ← decTy (fld w 0 4); pure (.vand vd va vb t)
  | 0x0C => do noExt x; let vd ← decFin 32 (fld w 16 5); let va ← decFin 40 (fld w 10 6); let vb ← decFin 40 (fld w 4 6); let t ← decTy (fld w 0 4); pure (.vor vd va vb t)
  | 0x0D => do noExt x; let vd ← decFin 32 (fld w 16 5); let va ← decFin 40 (fld w 10 6); let vb ← decFin 40 (fld w 4 6); let t ← decTy (fld w 0 4); pure (.vxor vd va vb t)
  | 0x0E => do noExt x; zeros w [(4, 6)]; let vd ← decFin 32 (fld w 16 5); let va ← decFin 40 (fld w 10 6); let t ← decTy (fld w 0 4); pure (.vnot vd va t)
  | 0x0F => do noExt x; let vd ← decFin 32 (fld w 16 5); let va ← decFin 40 (fld w 10 6); let vb ← decFin 40 (fld w 4 6); let t ← decTy (fld w 0 4); pure (.vshl vd va vb t)
  | 0x10 => do noExt x; let vd ← decFin 32 (fld w 16 5); let va ← decFin 40 (fld w 10 6); let vb ← decFin 40 (fld w 4 6); let t ← decTy (fld w 0 4); pure (.vshr vd va vb t)
  | 0x11 => do noExt x; let vd ← decFin 32 (fld w 16 5); let va ← decFin 40 (fld w 10 6); let vb ← decFin 40 (fld w 4 6); let t ← decTy (fld w 0 4); pure (.vsra vd va vb t)
  | 0x12 => do noExt x; let vd ← decFin 32 (fld w 16 5); let va ← decFin 40 (fld w 10 6); let vb ← decFin 40 (fld w 4 6); let t ← decTy (fld w 0 4); pure (.vavg vd va vb t)
  | 0x13 => do noExt x; let vd ← decFin 32 (fld w 16 5); let va ← decFin 40 (fld w 10 6); let vb ← decFin 40 (fld w 4 6); let t ← decTy (fld w 0 4); pure (.vabsd vd va vb t)
  | 0x14 => do noExt x; zeros w [(4, 6)]; let vd ← decFin 32 (fld w 16 5); let va ← decFin 40 (fld w 10 6); let t ← decTy (fld w 0 4); pure (.vclz vd va t)
  | 0x15 => do noExt x; zeros w [(4, 6)]; let vd ← decFin 32 (fld w 16 5); let va ← decFin 40 (fld w 10 6); let t ← decTy (fld w 0 4); pure (.vpopc vd va t)
  | 0x16 => do noExt x; zeros w [(4, 6)]; let vd ← decFin 32 (fld w 16 5); let va ← decFin 40 (fld w 10 6); let t ← decTy (fld w 0 4); pure (.vmov vd va t)
  | 0x17 => do noExt x; zeros w [(4, 6)]; let vd ← decFin 32 (fld w 16 5); let va ← decFin 40 (fld w 10 6); let t ← decTy (fld w 0 4); pure (.vrsum vd va t)
  | 0x18 => do noExt x; zeros w [(4, 6)]; let vd ← decFin 32 (fld w 16 5); let va ← decFin 40 (fld w 10 6); let t ← decTy (fld w 0 4); pure (.vrmax vd va t)
  | 0x19 => do noExt x; zeros w [(4, 6)]; let vd ← decFin 32 (fld w 16 5); let va ← decFin 40 (fld w 10 6); let t ← decTy (fld w 0 4); pure (.vrmin vd va t)
  | 0x1A => do noExt x; let vd ← decFin 32 (fld w 16 5); let va ← decFin 40 (fld w 10 6); let vb ← decFin 40 (fld w 4 6); let t ← decTy (fld w 0 4); pure (.vperm vd va vb t)
  | 0x1B => do noExt x; let vd ← decFin 32 (fld w 16 5); let va ← decFin 40 (fld w 10 6); let vb ← decFin 40 (fld w 4 6); let t ← decTy (fld w 0 4); pure (.vzip vd va vb t)
  | 0x1C => do noExt x; let vd ← decFin 32 (fld w 16 5); let va ← decFin 40 (fld w 10 6); let vb ← decFin 40 (fld w 4 6); let t ← decTy (fld w 0 4); pure (.vunzip vd va vb t)
  | 0x1D => do noExt x; zeros w [(4, 6), (16, 5)]; let va ← decFin 40 (fld w 10 6); let t ← decTy (fld w 0 4); pure (.vmaxexp va t)
  | 0x1E => do noExt x; zeros w [(4, 6)]; let vd ← decFin 32 (fld w 16 5); let va ← decFin 40 (fld w 10 6); let t ← decTy (fld w 0 4); pure (.vseedx vd va t)
  | 0x1F => do noExt x; let vd ← decFin 32 (fld w 16 5); let va ← decFin 40 (fld w 10 6); let vb ← decFin 40 (fld w 4 6); let t ← decTy (fld w 0 4); pure (.vseedc vd va vb t)
  | 0x20 => do let e ← needExt x; zeros e [(0, 24)]; let vd ← decFin 32 (fld w 16 5); let va ← decFin 40 (fld w 10 6); let vb ← decFin 40 (fld w 4 6); let t ← decTy (fld w 0 4); let vc ← decFin 40 (fld e 26 6); let rm ← decRm (fld e 24 2); pure (.vfma vd va vb t vc rm)
  | 0x21 => do let e ← needExt x; zeros e [(0, 24)]; let vd ← decFin 32 (fld w 16 5); let va ← decFin 40 (fld w 10 6); let vb ← decFin 40 (fld w 4 6); let t ← decTy (fld w 0 4); let vc ← decFin 40 (fld e 26 6); let rm ← decRm (fld e 24 2); pure (.vfms vd va vb t vc rm)
  | 0x22 => do let e ← needExt x; zeros e [(0, 24)]; let vd ← decFin 32 (fld w 16 5); let va ← decFin 40 (fld w 10 6); let vb ← decFin 40 (fld w 4 6); let t ← decTy (fld w 0 4); let vc ← decFin 40 (fld e 26 6); let rm ← decRm (fld e 24 2); pure (.vfnma vd va vb t vc rm)
  | 0x23 => do let e ← needExt x; zeros e [(0, 24)]; let vd ← decFin 32 (fld w 16 5); let va ← decFin 40 (fld w 10 6); let vb ← decFin 40 (fld w 4 6); let t ← decTy (fld w 0 4); let vc ← decFin 40 (fld e 26 6); let rm ← decRm (fld e 24 2); pure (.vfnms vd va vb t vc rm)
  | 0x24 => do let e ← needExt x; zeros e [(0, 21), (24, 8)]; let vd ← decFin 32 (fld w 16 5); let va ← decFin 40 (fld w 10 6); let vb ← decFin 40 (fld w 4 6); let t ← decTy (fld w 0 4); let ps ← decFin 8 (fld e 21 3); pure (.vsel vd va vb t ps)
  | 0x25 => do let e ← needExt x; zeros e [(0, 24), (26, 6)]; let vd ← decFin 32 (fld w 16 5); let va ← decFin 40 (fld w 10 6); let vb ← decFin 40 (fld w 4 6); let t ← decTy (fld w 0 4); let rm ← decRm (fld e 24 2); pure (.vaddr vd va vb t rm)
  | 0x26 => do let e ← needExt x; zeros e [(0, 24), (26, 6)]; let vd ← decFin 32 (fld w 16 5); let va ← decFin 40 (fld w 10 6); let vb ← decFin 40 (fld w 4 6); let t ← decTy (fld w 0 4); let rm ← decRm (fld e 24 2); pure (.vmulr vd va vb t rm)
  | 0x27 => do let e ← needExt x; zeros w [(8, 2)]; zeros e [(0, 21)]; let vd ← decFin 32 (fld w 16 5); let va ← decFin 40 (fld w 10 6); let ts ← decTy (fld w 4 4); let td ← decTy (fld w 0 4); let sc := BitVec.ofNat 6 (fld e 26 6); let rm ← decRm (fld e 24 2); let part ← decFin 8 (fld e 21 3); pure (.vcvt vd va ts td sc rm part)
  | 0x28 => do let e ← needExt x; zeros w [(4, 6)]; let vd ← decFin 32 (fld w 16 5); let va ← decFin 40 (fld w 10 6); let t ← decTy (fld w 0 4); let imm := BitVec.ofNat 32 (fld e 0 32); pure (.vaddi vd va t imm)
  | 0x29 => do let e ← needExt x; zeros w [(4, 6)]; let vd ← decFin 32 (fld w 16 5); let va ← decFin 40 (fld w 10 6); let t ← decTy (fld w 0 4); let imm := BitVec.ofNat 32 (fld e 0 32); pure (.vmuli vd va t imm)
  | 0x2A => do let e ← needExt x; zeros w [(4, 6)]; let vd ← decFin 32 (fld w 16 5); let va ← decFin 40 (fld w 10 6); let t ← decTy (fld w 0 4); let imm := BitVec.ofNat 32 (fld e 0 32); pure (.vandi vd va t imm)
  | 0x2B => do let e ← needExt x; zeros w [(4, 6)]; let vd ← decFin 32 (fld w 16 5); let va ← decFin 40 (fld w 10 6); let t ← decTy (fld w 0 4); let imm := BitVec.ofNat 32 (fld e 0 32); pure (.vori vd va t imm)
  | 0x2C => do let e ← needExt x; zeros w [(4, 6)]; let vd ← decFin 32 (fld w 16 5); let va ← decFin 40 (fld w 10 6); let t ← decTy (fld w 0 4); let imm := BitVec.ofNat 32 (fld e 0 32); pure (.vshli vd va t imm)
  | 0x2D => do let e ← needExt x; zeros w [(4, 6)]; let vd ← decFin 32 (fld w 16 5); let va ← decFin 40 (fld w 10 6); let t ← decTy (fld w 0 4); let imm := BitVec.ofNat 32 (fld e 0 32); pure (.vshri vd va t imm)
  | 0x2E => do let e ← needExt x; zeros w [(4, 6)]; let vd ← decFin 32 (fld w 16 5); let va ← decFin 40 (fld w 10 6); let t ← decTy (fld w 0 4); let imm := BitVec.ofNat 32 (fld e 0 32); pure (.vsrai vd va t imm)
  | 0x2F => do let e ← needExt x; zeros w [(4, 12)]; let vd ← decFin 32 (fld w 16 5); let t ← decTy (fld w 0 4); let imm := BitVec.ofNat 32 (fld e 0 32); pure (.vbcst vd t imm)
  | 0x30 => do noExt x; zeros w [(16, 2)]; let pd ← decFin 8 (fld w 18 3); let va ← decFin 40 (fld w 10 6); let vb ← decFin 40 (fld w 4 6); let t ← decTy (fld w 0 4); pure (.vcmpeq pd va vb t)
  | 0x31 => do noExt x; zeros w [(16, 2)]; let pd ← decFin 8 (fld w 18 3); let va ← decFin 40 (fld w 10 6); let vb ← decFin 40 (fld w 4 6); let t ← decTy (fld w 0 4); pure (.vcmpne pd va vb t)
  | 0x32 => do noExt x; zeros w [(16, 2)]; let pd ← decFin 8 (fld w 18 3); let va ← decFin 40 (fld w 10 6); let vb ← decFin 40 (fld w 4 6); let t ← decTy (fld w 0 4); pure (.vcmplt pd va vb t)
  | 0x33 => do noExt x; zeros w [(16, 2)]; let pd ← decFin 8 (fld w 18 3); let va ← decFin 40 (fld w 10 6); let vb ← decFin 40 (fld w 4 6); let t ← decTy (fld w 0 4); pure (.vcmple pd va vb t)
  | 0x34 => do noExt x; zeros w [(16, 2)]; let pd ← decFin 8 (fld w 18 3); let va ← decFin 40 (fld w 10 6); let vb ← decFin 40 (fld w 4 6); let t ← decTy (fld w 0 4); pure (.vcmpgt pd va vb t)
  | 0x35 => do noExt x; zeros w [(16, 2)]; let pd ← decFin 8 (fld w 18 3); let va ← decFin 40 (fld w 10 6); let vb ← decFin 40 (fld w 4 6); let t ← decTy (fld w 0 4); pure (.vcmpge pd va vb t)
  | 0x36 => do noExt x; zeros w [(16, 2)]; let pd ← decFin 8 (fld w 18 3); let va ← decFin 40 (fld w 10 6); let vb ← decFin 40 (fld w 4 6); let t ← decTy (fld w 0 4); pure (.vcmpun pd va vb t)
  | 0x37 => do noExt x; zeros w [(16, 2)]; let pd ← decFin 8 (fld w 18 3); let va ← decFin 40 (fld w 10 6); let vb ← decFin 40 (fld w 4 6); let t ← decTy (fld w 0 4); pure (.vclass pd va vb t)
  | 0x38 => do noExt x; zeros w [(0, 4), (16, 2)]; let pd ← decFin 8 (fld w 18 3); let pa ← decFin 8 (fld w 10 6); let pb ← decFin 8 (fld w 4 6); pure (.vpand pd pa pb)
  | 0x39 => do noExt x; zeros w [(0, 4), (16, 2)]; let pd ← decFin 8 (fld w 18 3); let pa ← decFin 8 (fld w 10 6); let pb ← decFin 8 (fld w 4 6); pure (.vpor pd pa pb)
  | 0x3A => do noExt x; zeros w [(0, 4), (16, 2)]; let pd ← decFin 8 (fld w 18 3); let pa ← decFin 8 (fld w 10 6); let pb ← decFin 8 (fld w 4 6); pure (.vpxor pd pa pb)
  | 0x3B => do noExt x; zeros w [(0, 4), (16, 2)]; let pd ← decFin 8 (fld w 18 3); let pa ← decFin 8 (fld w 10 6); let pb ← decFin 8 (fld w 4 6); pure (.vpandn pd pa pb)
  | 0x3C => do noExt x; zeros w [(4, 6)]; let vd ← decFin 32 (fld w 16 5); let va ← decFin 40 (fld w 10 6); let t ← decTy (fld w 0 4); pure (.vexp vd va t)
  | 0x3D => do noExt x; zeros w [(4, 6)]; let vd ← decFin 32 (fld w 16 5); let va ← decFin 40 (fld w 10 6); let t ← decTy (fld w 0 4); pure (.vexp2 vd va t)
  | 0x3E => do noExt x; zeros w [(4, 6)]; let vd ← decFin 32 (fld w 16 5); let va ← decFin 40 (fld w 10 6); let t ← decTy (fld w 0 4); pure (.vlog vd va t)
  | 0x3F => do noExt x; zeros w [(4, 6)]; let vd ← decFin 32 (fld w 16 5); let va ← decFin 40 (fld w 10 6); let t ← decTy (fld w 0 4); pure (.vlog2 vd va t)
  | 0x40 => do noExt x; zeros w [(4, 6)]; let vd ← decFin 32 (fld w 16 5); let va ← decFin 40 (fld w 10 6); let t ← decTy (fld w 0 4); pure (.vrcp vd va t)
  | 0x41 => do noExt x; zeros w [(4, 6)]; let vd ← decFin 32 (fld w 16 5); let va ← decFin 40 (fld w 10 6); let t ← decTy (fld w 0 4); pure (.vrsq vd va t)
  | 0x42 => do noExt x; zeros w [(4, 6)]; let vd ← decFin 32 (fld w 16 5); let va ← decFin 40 (fld w 10 6); let t ← decTy (fld w 0 4); pure (.vsqrt vd va t)
  | 0x43 => do noExt x; zeros w [(4, 6)]; let vd ← decFin 32 (fld w 16 5); let va ← decFin 40 (fld w 10 6); let t ← decTy (fld w 0 4); pure (.vtanh vd va t)
  | 0x44 => do noExt x; zeros w [(4, 6)]; let vd ← decFin 32 (fld w 16 5); let va ← decFin 40 (fld w 10 6); let t ← decTy (fld w 0 4); pure (.vsigm vd va t)
  | 0x45 => do noExt x; zeros w [(4, 6)]; let vd ← decFin 32 (fld w 16 5); let va ← decFin 40 (fld w 10 6); let t ← decTy (fld w 0 4); pure (.vsilu vd va t)
  | 0x46 => do noExt x; zeros w [(4, 6)]; let vd ← decFin 32 (fld w 16 5); let va ← decFin 40 (fld w 10 6); let t ← decTy (fld w 0 4); pure (.vgelu vd va t)
  | 0x47 => do noExt x; zeros w [(4, 6)]; let vd ← decFin 32 (fld w 16 5); let va ← decFin 40 (fld w 10 6); let t ← decTy (fld w 0 4); pure (.vsin vd va t)
  | 0x48 => do noExt x; zeros w [(4, 6)]; let vd ← decFin 32 (fld w 16 5); let va ← decFin 40 (fld w 10 6); let t ← decTy (fld w 0 4); pure (.vcos vd va t)
  | 0x49 => do noExt x; zeros w [(4, 6)]; let vd ← decFin 32 (fld w 16 5); let va ← decFin 40 (fld w 10 6); let t ← decTy (fld w 0 4); pure (.verf vd va t)
  | 0x4A => do noExt x; zeros w [(0, 4), (16, 1)]; let h ← decFin 16 (fld w 17 4); let va ← decFin 40 (fld w 10 6); let vb ← decFin 40 (fld w 4 6); pure (.vtbld h va vb)
  | 0x4B => do noExt x; let vd ← decFin 32 (fld w 16 5); let x ← decFin 4 (fld w 14 2); let k ← decFin 16 (fld w 10 4); let td ← decTy (fld w 6 4); let ts ← decTy (fld w 2 4); let rm ← decRm (fld w 0 2); pure (.vtwr vd x k td ts rm)
  | 0x4C => do noExt x; let vd ← decFin 32 (fld w 16 5); let x ← decFin 4 (fld w 14 2); let k ← decFin 16 (fld w 10 4); let td ← decTy (fld w 6 4); let ts ← decTy (fld w 2 4); let rm ← decRm (fld w 0 2); pure (.vtrd vd x k td ts rm)
  | 0x4D => do noExt x; let vd ← decFin 32 (fld w 16 5); let ab ← decFin 16 (fld w 12 4); let sp := fld w 11 1 == 1; let pi := fld w 10 1 == 1; let i := BitVec.ofNat 10 (fld w 0 10); pure (.vld vd ab sp pi i)
  | 0x4E => do noExt x; let vd ← decFin 32 (fld w 16 5); let ab ← decFin 16 (fld w 12 4); let sp := fld w 11 1 == 1; let pi := fld w 10 1 == 1; let i := BitVec.ofNat 10 (fld w 0 10); pure (.vst vd ab sp pi i)
  | 0x4F => do noExt x; let vd ← decFin 32 (fld w 16 5); let ab ← decFin 16 (fld w 12 4); let sp := fld w 11 1 == 1; let pi := fld w 10 1 == 1; let i := BitVec.ofNat 10 (fld w 0 10); pure (.vldb vd ab sp pi i)
  | 0x50 => do noExt x; let vd ← decFin 32 (fld w 16 5); let ab ← decFin 16 (fld w 12 4); let sp := fld w 11 1 == 1; let pi := fld w 10 1 == 1; let i := BitVec.ofNat 10 (fld w 0 10); pure (.vldnt vd ab sp pi i)
  | 0x51 => do noExt x; let vd ← decFin 32 (fld w 16 5); let ab ← decFin 16 (fld w 12 4); let sp := fld w 11 1 == 1; let pi := fld w 10 1 == 1; let i := BitVec.ofNat 10 (fld w 0 10); pure (.vstnt vd ab sp pi i)
  | 0x52 => do noExt x; zeros w [(0, 3)]; let vd ← decFin 32 (fld w 16 5); let ab ← decFin 16 (fld w 12 4); let sp := fld w 11 1 == 1; let vi ← decFin 40 (fld w 5 6); let es ← decWidth (fld w 3 2); pure (.vgath vd ab sp vi es)
  | 0x53 => do noExt x; zeros w [(0, 3)]; let vd ← decFin 32 (fld w 16 5); let ab ← decFin 16 (fld w 12 4); let sp := fld w 11 1 == 1; let vi ← decFin 40 (fld w 5 6); let es ← decWidth (fld w 3 2); pure (.vscat vd ab sp vi es)
  | 0x54 => do noExt x; zeros w [(0, 3)]; let vd ← decFin 32 (fld w 16 5); let ab ← decFin 16 (fld w 12 4); let sp := fld w 11 1 == 1; let vi ← decFin 40 (fld w 5 6); let es ← decWidth (fld w 3 2); pure (.vscata vd ab sp vi es)
  | 0x55 => do noExt x; zeros w [(4, 6)]; let vd ← decFin 32 (fld w 16 5); let va ← decFin 40 (fld w 10 6); let t ← decTy (fld w 0 4); pure (.vwiden vd va t)
  | 0x56 => do noExt x; let vd ← decFin 32 (fld w 16 5); let va ← decFin 40 (fld w 10 6); let vb ← decFin 40 (fld w 4 6); let t ← decTy (fld w 0 4); pure (.vnarrow vd va vb t)
  | 0x57 => do noExt x; let vd ← decFin 32 (fld w 16 5); let va ← decFin 40 (fld w 10 6); let vb ← decFin 40 (fld w 4 6); let t ← decTy (fld w 0 4); pure (.vpack vd va vb t)
  | 0x58 => do noExt x; zeros w [(4, 6)]; let vd ← decFin 32 (fld w 16 5); let va ← decFin 40 (fld w 10 6); let t ← decTy (fld w 0 4); pure (.vunpack vd va t)
  | 0x59 => do noExt x; let vd ← decFin 32 (fld w 16 5); let va ← decFin 40 (fld w 10 6); let vb ← decFin 40 (fld w 4 6); let t ← decTy (fld w 0 4); pure (.vsumw vd va vb t)
  | 0x5A => do noExt x; let vd ← decFin 32 (fld w 16 5); let va ← decFin 40 (fld w 10 6); let vb ← decFin 40 (fld w 4 6); let t ← decTy (fld w 0 4); pure (.vdot2 vd va vb t)
  | 0x5B => do noExt x; let vd ← decFin 32 (fld w 16 5); let va ← decFin 40 (fld w 10 6); let vb ← decFin 40 (fld w 4 6); let t ← decTy (fld w 0 4); pure (.vscale vd va vb t)
  | 0x5C => do noExt x; zeros w [(4, 6)]; let vd ← decFin 32 (fld w 16 5); let va ← decFin 40 (fld w 10 6); let t ← decTy (fld w 0 4); pure (.vround vd va t)
  | 0x5D => do noExt x; zeros w [(4, 6)]; let vd ← decFin 32 (fld w 16 5); let va ← decFin 40 (fld w 10 6); let t ← decTy (fld w 0 4); pure (.vfloor vd va t)
  | 0x5E => do noExt x; let vd ← decFin 32 (fld w 16 5); let va ← decFin 40 (fld w 10 6); let vb ← decFin 40 (fld w 4 6); let t ← decTy (fld w 0 4); pure (.vslide vd va vb t)
  | 0x5F => do noExt x; zeros w [(4, 6)]; let vd ← decFin 32 (fld w 16 5); let va ← decFin 40 (fld w 10 6); let t ← decTy (fld w 0 4); pure (.vrev vd va t)
  | _ => .error .unassigned

/-- Slot words of the matrix class (02_encodings.md Tables 2-1, 2-2, 2-4 to 2-8), the guard apart. -/
def decodeMatrix (w : Nat) (x : Option Nat) : Except Reject MatrixOp :=
  match w / 2 ^ 25 with
  | 0x00 => do noExt x; zeros w [(0, 25)]; pure .mnop
  | 0x01 => do noExt x; zeros w [(0, 13)]; let s ← decFin 32 (fld w 16 5); let sel ← decFin 8 (fld w 13 3); pure (.mcbset s sel)
  | 0x02 => do noExt x; let ht ← decFin 16 (fld w 17 4); let hw ← decFin 16 (fld w 13 4); let row ← decFin 64 (fld w 7 6); let col ← decFin 16 (fld w 3 4); let sh ← decFin 4 (fld w 1 2); let clr := fld w 0 1 == 1; pure (.mlut ht hw row col sh clr)
  | 0x03 => do let e ← needExt x; zeros e [(0, 24)]; let ht ← decFin 16 (fld w 17 4); let hw ← decFin 16 (fld w 13 4); let row ← decFin 64 (fld w 7 6); let col ← decFin 16 (fld w 3 4); let sh ← decFin 4 (fld w 1 2); let clr := fld w 0 1 == 1; let hp ← decFin 16 (fld e 28 4); let hs ← decFin 16 (fld e 24 4); pure (.mlutg ht hw row col sh clr hp hs)
  | 0x04 => do noExt x; let ht ← decFin 16 (fld w 17 4); let hw ← decFin 16 (fld w 13 4); let row ← decFin 64 (fld w 7 6); let col ← decFin 16 (fld w 3 4); let sh ← decFin 4 (fld w 1 2); let clr := fld w 0 1 == 1; pure (.mluts ht hw row col sh clr)
  | 0x05 => do let e ← needExt x; zeros e [(0, 24)]; let ht ← decFin 16 (fld w 17 4); let hw ← decFin 16 (fld w 13 4); let row ← decFin 64 (fld w 7 6); let col ← decFin 16 (fld w 3 4); let sh ← decFin 4 (fld w 1 2); let clr := fld w 0 1 == 1; let hp ← decFin 16 (fld e 28 4); let hs ← decFin 16 (fld e 24 4); pure (.mlutsg ht hw row col sh clr hp hs)
  | 0x06 => do noExt x; zeros w [(0, 1), (13, 8)]; let row ← decFin 64 (fld w 7 6); let col ← decFin 16 (fld w 3 4); let sh ← decFin 4 (fld w 1 2); pure (.maclr row col sh)
  | 0x07 => do noExt x; zeros w [(0, 17)]; let ht ← decFin 16 (fld w 17 4); pure (.mmask ht)
  | 0x08 => do noExt x; zeros w [(0, 13)]; let s ← decFin 32 (fld w 16 5); let n ← decFin 8 (fld w 13 3); pure (.mstat s n)
  | 0x09 => do noExt x; zeros w [(0, 13)]; let s ← decFin 32 (fld w 16 5); let sel ← decFin 8 (fld w 13 3); pure (.mcbget s sel)
  | 0x0A => do noExt x; zeros w [(0, 6)]; let vd ← decFin 32 (fld w 16 5); let row ← decFin 64 (fld w 10 6); let col ← decFin 16 (fld w 6 4); pure (.macrd vd row col)
  | 0x0B => do noExt x; zeros w [(0, 6)]; let vd ← decFin 32 (fld w 16 5); let row ← decFin 64 (fld w 10 6); let col ← decFin 16 (fld w 6 4); pure (.macwr vd row col)
  | 0x0C => do noExt x; zeros w [(0, 6)]; let vd ← decFin 32 (fld w 16 5); let row ← decFin 64 (fld w 10 6); let col ← decFin 16 (fld w 6 4); pure (.mbias vd row col)
  | 0x0D => do noExt x; zeros w [(0, 21)]; pure .mreset
  | 0x0E => do noExt x; let ht ← decFin 16 (fld w 17 4); let hw ← decFin 16 (fld w 13 4); let row ← decFin 64 (fld w 7 6); let col ← decFin 16 (fld w 3 4); let sh ← decFin 4 (fld w 1 2); let clr := fld w 0 1 == 1; pure (.mlutk ht hw row col sh clr)
  | 0x0F => do let e ← needExt x; zeros e [(0, 24)]; let ht ← decFin 16 (fld w 17 4); let hw ← decFin 16 (fld w 13 4); let row ← decFin 64 (fld w 7 6); let col ← decFin 16 (fld w 3 4); let sh ← decFin 4 (fld w 1 2); let clr := fld w 0 1 == 1; let hp ← decFin 16 (fld e 28 4); let hs ← decFin 16 (fld e 24 4); pure (.mlutgk ht hw row col sh clr hp hs)
  | _ => .error .unassigned

/-- Slot words of the copy class (02_encodings.md Tables 2-1, 2-2, 2-4 to 2-8), the guard apart. -/
def decodeCopy (w : Nat) (x : Option Nat) : Except Reject CopyOp :=
  match w / 2 ^ 25 with
  | 0x00 => do noExt x; zeros w [(0, 25)]; pure .ynop
  | 0x01 => do noExt x; zeros w [(0, 12)]; let ab ← decFin 16 (fld w 17 4); let pi := fld w 16 1 == 1; let lock := fld w 15 1 == 1; let sc ← decScope (fld w 12 3); pure (.ycopy ab pi lock sc)
  | 0x02 => do noExt x; zeros w [(0, 12)]; let ab ← decFin 16 (fld w 17 4); let pi := fld w 16 1 == 1; let lock := fld w 15 1 == 1; let sc ← decScope (fld w 12 3); pure (.ypush ab pi lock sc)
  | 0x03 => do noExt x; zeros w [(0, 12)]; let ab ← decFin 16 (fld w 17 4); let pi := fld w 16 1 == 1; let lock := fld w 15 1 == 1; let sc ← decScope (fld w 12 3); pure (.yacc ab pi lock sc)
  | 0x04 => do noExt x; zeros w [(0, 12)]; let ab ← decFin 16 (fld w 17 4); let pi := fld w 16 1 == 1; let lock := fld w 15 1 == 1; let sc ← decScope (fld w 12 3); pure (.yaccp ab pi lock sc)
  | 0x05 => do noExt x; zeros w [(0, 12)]; let ab ← decFin 16 (fld w 17 4); let pi := fld w 16 1 == 1; let lock := fld w 15 1 == 1; let sc ← decScope (fld w 12 3); pure (.ymx4 ab pi lock sc)
  | 0x06 => do noExt x; zeros w [(0, 12)]; let ab ← decFin 16 (fld w 17 4); let pi := fld w 16 1 == 1; let lock := fld w 15 1 == 1; let sc ← decScope (fld w 12 3); pure (.ysadd ab pi lock sc)
  | 0x07 => do noExt x; zeros w [(0, 12)]; let ab ← decFin 16 (fld w 17 4); let pi := fld w 16 1 == 1; let lock := fld w 15 1 == 1; let sc ← decScope (fld w 12 3); pure (.yatom ab pi lock sc)
  | 0x08 => do noExt x; zeros w [(0, 12)]; let ab ← decFin 16 (fld w 17 4); let pi := fld w 16 1 == 1; let lock := fld w 15 1 == 1; let sc ← decScope (fld w 12 3); pure (.ypref ab pi lock sc)
  | 0x09 => do noExt x; zeros w [(0, 12)]; let ab ← decFin 16 (fld w 17 4); let pi := fld w 16 1 == 1; let lock := fld w 15 1 == 1; let sc ← decScope (fld w 12 3); pure (.yfill ab pi lock sc)
  | 0x0A => do noExt x; zeros w [(0, 12)]; let ab ← decFin 16 (fld w 17 4); let pi := fld w 16 1 == 1; let lock := fld w 15 1 == 1; let sc ← decScope (fld w 12 3); pure (.yrem ab pi lock sc)
  | 0x0B => do noExt x; zeros w [(0, 12)]; let ab ← decFin 16 (fld w 17 4); let pi := fld w 16 1 == 1; let lock := fld w 15 1 == 1; let sc ← decScope (fld w 12 3); pure (.ygath ab pi lock sc)
  | 0x0C => do noExt x; zeros w [(0, 12)]; let ab ← decFin 16 (fld w 17 4); let pi := fld w 16 1 == 1; let lock := fld w 15 1 == 1; let sc ← decScope (fld w 12 3); pure (.yscat ab pi lock sc)
  | 0x0D => do noExt x; zeros w [(0, 12)]; let ab ← decFin 16 (fld w 17 4); let pi := fld w 16 1 == 1; let lock := fld w 15 1 == 1; let sc ← decScope (fld w 12 3); pure (.yline ab pi lock sc)
  | 0x0E => do noExt x; zeros w [(0, 21)]; pure .ycancel
  | 0x0F => do noExt x; zeros w [(0, 7), (12, 4)]; let ab ← decFin 16 (fld w 17 4); let pi := fld w 16 1 == 1; let vd ← decFin 32 (fld w 7 5); pure (.yldv ab pi vd)
  | _ => .error .unassigned

/-- One slot word and its extension word, in slot `k`, as generation G3 and the union of the engine and Taproot profiles read it. -/
def decodeSlot (k : Fin 8) (w : Nat) (x : Option Nat) : Except Reject Slot := do
  let o ← match clsOf k with
    | .C => do pure (.c (← decodeControl w x))
    | .S => do pure (.s (← decodeScalar w x))
    | .A => do pure (.a (← decodeAddress w x))
    | .V => do pure (.v (k.val == 4) (← decodeVector w x))
    | .M => do pure (.m (← decodeMatrix w x))
    | .Y => do pure (.y (k.val == 7) (← decodeCopy w x))
  let i : Slot := ⟨decGuard w, o⟩
  if i.wf then pure i else .error .notPermitted

/-- Opcode, bits [20:0] and extension word of a control operation. -/
def ControlOp.enc : ControlOp → Nat × Nat × Option Nat
  | .cnop => (0, 0, none)
  | .br bt => (0x01, put 18 (bt.val), none)
  | .brp bt neg ps => (0x02, put 18 (bt.val) + put 17 (bit1 neg) + put 14 (ps.val), none)
  | .brlc bt lc => (0x03, put 18 (bt.val) + put 12 (lc.val), none)
  | .brl bt bl => (0x04, put 18 (bt.val) + put 9 (bl.val), none)
  | .brx a => (0x05, put 11 (a.val), none)
  | .halt => (0x06, 0, none)
  | .delay n => (0x07, n.toNat, none)
  | .pbr bd i => (0x08, put 18 (bd.val) + i.toNat, none)
  | .pbrs d a => (0x09, put 16 (d.val) + put 11 (a.val), none)
  | .bget d a => (0x0A, put 16 (d.val) + put 11 (a.val), none)
  | .btok d e => (0x0B, put 16 (d.val) + encEng e, none)
  | .lcset d n => (0x0C, put 16 (d.val) + n.toNat, none)
  | .lcsets d a => (0x0D, put 16 (d.val) + put 11 (a.val), none)
  | .lcget d a => (0x0E, put 16 (d.val) + put 11 (a.val), none)
  | .skset d n => (0x0F, put 16 ((d.val + 1)) + bit1 n, none)
  | .sksets d a => (0x10, put 16 ((d.val + 1)) + put 11 (a.val), none)
  | .skget d a => (0x11, put 16 (d.val) + put 11 ((a.val + 1)), none)
  | .shape d a b => (0x12, put 16 (d.val) + put 11 (a.val) + put 6 (b.val), none)
  | .shapex d a imm => (0x13, put 16 (d.val) + put 11 (a.val), some (imm.toNat))
  | .shget d a => (0x14, put 16 (d.val) + put 11 (a.val), none)
  | .fdset d a => (0x15, put 16 (d.val) + put 11 (a.val), none)
  | .fdget d a => (0x16, put 16 (d.val) + put 11 (a.val), none)
  | .hinit d a => (0x18, put 16 (d.val) + put 11 (a.val), none)
  | .hwait d n => (0x19, put 16 (d.val) + n.toNat, none)
  | .hres d n => (0x1A, put 16 (d.val) + n.toNat, none)
  | .hadv d n => (0x1B, put 16 (d.val) + n.toNat, none)
  | .hcommit d a => (0x1C, put 16 (d.val) + put 11 (a.val), none)
  | .hget d a => (0x1D, put 16 (d.val) + put 11 (a.val), none)
  | .hstat d a => (0x1E, put 16 (d.val) + put 11 (a.val), none)
  | .qfence m => (0x1F, m.toNat, none)
  | .barinit a n => (0x20, put 11 (a.val) + n.toNat, none)
  | .bararv sc n => (0x21, put 16 (encScope sc) + n.toNat, none)
  | .barwait sc n => (0x22, put 16 (encScope sc) + n.toNat, none)
  | .barrem a sc => (0x23, put 11 (a.val) + encScope sc, none)
  | .gjoin a => (0x24, put 11 (a.val), none)
  | .gleave a => (0x25, put 11 (a.val), none)
  | .lpatch a b k => (0x26, put 11 (a.val) + put 6 (b.val) + k.val, none)
  | .larm d a => (0x27, put 16 (d.val) + put 11 (a.val), none)
  | .lwait a => (0x28, put 11 (a.val), none)
  | .trap n => (0x30, n.toNat, none)
  | .rft => (0x31, 0, none)
  | .brk n => (0x32, n.toNat, none)
  | .csrrd d n => (0x33, put 16 (d.val) + n.toNat, none)
  | .csrwr a n => (0x34, put 11 (a.val) + n.toNat, none)
  | .csrset a n => (0x35, put 11 (a.val) + n.toNat, none)
  | .csrclr a n => (0x36, put 11 (a.val) + n.toNat, none)
  | .scall n => (0x37, n.toNat, none)
  | .sret => (0x38, 0, none)
  | .wfi => (0x39, 0, none)
  | .tbwait d a => (0x3A, put 16 (d.val) + put 11 (a.val), none)

/-- Opcode, bits [20:0] and extension word of a scalar operation. -/
def ScalarOp.enc : ScalarOp → Nat × Nat × Option Nat
  | .snop => (0, 0, none)
  | .add d a b => (0x01, put 16 (d.val) + put 11 (a.val) + put 6 (b.val), none)
  | .sub d a b => (0x02, put 16 (d.val) + put 11 (a.val) + put 6 (b.val), none)
  | .mul d a b => (0x03, put 16 (d.val) + put 11 (a.val) + put 6 (b.val), none)
  | .mulh d a b => (0x04, put 16 (d.val) + put 11 (a.val) + put 6 (b.val), none)
  | .mulhu d a b => (0x05, put 16 (d.val) + put 11 (a.val) + put 6 (b.val), none)
  | .and d a b => (0x06, put 16 (d.val) + put 11 (a.val) + put 6 (b.val), none)
  | .or d a b => (0x07, put 16 (d.val) + put 11 (a.val) + put 6 (b.val), none)
  | .xor d a b => (0x08, put 16 (d.val) + put 11 (a.val) + put 6 (b.val), none)
  | .andn d a b => (0x09, put 16 (d.val) + put 11 (a.val) + put 6 (b.val), none)
  | .orn d a b => (0x0A, put 16 (d.val) + put 11 (a.val) + put 6 (b.val), none)
  | .shl d a b => (0x0B, put 16 (d.val) + put 11 (a.val) + put 6 (b.val), none)
  | .shr d a b => (0x0C, put 16 (d.val) + put 11 (a.val) + put 6 (b.val), none)
  | .sra d a b => (0x0D, put 16 (d.val) + put 11 (a.val) + put 6 (b.val), none)
  | .rol d a b => (0x0E, put 16 (d.val) + put 11 (a.val) + put 6 (b.val), none)
  | .min d a b => (0x0F, put 16 (d.val) + put 11 (a.val) + put 6 (b.val), none)
  | .max d a b => (0x10, put 16 (d.val) + put 11 (a.val) + put 6 (b.val), none)
  | .minu d a b => (0x11, put 16 (d.val) + put 11 (a.val) + put 6 (b.val), none)
  | .maxu d a b => (0x12, put 16 (d.val) + put 11 (a.val) + put 6 (b.val), none)
  | .slt d a b => (0x13, put 16 (d.val) + put 11 (a.val) + put 6 (b.val), none)
  | .sltu d a b => (0x14, put 16 (d.val) + put 11 (a.val) + put 6 (b.val), none)
  | .seq d a b => (0x15, put 16 (d.val) + put 11 (a.val) + put 6 (b.val), none)
  | .sne d a b => (0x16, put 16 (d.val) + put 11 (a.val) + put 6 (b.val), none)
  | .clz d a => (0x17, put 16 (d.val) + put 11 (a.val), none)
  | .mov d a => (0x18, put 16 (d.val) + put 11 (a.val), none)
  | .ctz d a => (0x19, put 16 (d.val) + put 11 (a.val), none)
  | .popc d a => (0x1A, put 16 (d.val) + put 11 (a.val), none)
  | .sext d a w => (0x1B, put 16 (d.val) + put 11 (a.val) + encWidth w, none)
  | .zext d a w => (0x1C, put 16 (d.val) + put 11 (a.val) + encWidth w, none)
  | .addi d a i => (0x1D, put 16 (d.val) + put 11 (a.val) + i.toNat, none)
  | .muli d a i => (0x1E, put 16 (d.val) + put 11 (a.val) + i.toNat, none)
  | .andi d a i => (0x1F, put 16 (d.val) + put 11 (a.val) + i.toNat, none)
  | .ori d a i => (0x20, put 16 (d.val) + put 11 (a.val) + i.toNat, none)
  | .xori d a i => (0x21, put 16 (d.val) + put 11 (a.val) + i.toNat, none)
  | .shli d a i => (0x22, put 16 (d.val) + put 11 (a.val) + i.toNat, none)
  | .shri d a i => (0x23, put 16 (d.val) + put 11 (a.val) + i.toNat, none)
  | .srai d a i => (0x24, put 16 (d.val) + put 11 (a.val) + i.toNat, none)
  | .roli d a i => (0x25, put 16 (d.val) + put 11 (a.val) + i.toNat, none)
  | .slti d a i => (0x26, put 16 (d.val) + put 11 (a.val) + i.toNat, none)
  | .sltui d a i => (0x27, put 16 (d.val) + put 11 (a.val) + i.toNat, none)
  | .seqi d a i => (0x28, put 16 (d.val) + put 11 (a.val) + i.toNat, none)
  | .mini d a i => (0x29, put 16 (d.val) + put 11 (a.val) + i.toNat, none)
  | .maxi d a i => (0x2A, put 16 (d.val) + put 11 (a.val) + i.toNat, none)
  | .li d imm => (0x2B, put 16 (d.val), some (imm.toNat))
  | .lih d imm => (0x2C, put 16 (d.val), some (imm.toNat))
  | .addx d a imm => (0x2D, put 16 (d.val) + put 11 (a.val), some (imm.toNat))
  | .andx d a imm => (0x2E, put 16 (d.val) + put 11 (a.val), some (imm.toNat))
  | .orx d a imm => (0x2F, put 16 (d.val) + put 11 (a.val), some (imm.toNat))
  | .xorx d a imm => (0x30, put 16 (d.val) + put 11 (a.val), some (imm.toNat))
  | .spset d a => (0x31, put 16 (d.val) + put 11 (a.val), none)
  | .spany d a => (0x32, put 16 (d.val) + put 11 (a.val), none)
  | .spall d a => (0x33, put 16 (d.val) + put 11 (a.val), none)
  | .spcnt d a => (0x34, put 16 (d.val) + put 11 (a.val), none)
  | .scyc d => (0x35, put 16 (d.val), none)
  | .svl d => (0x36, put 16 (d.val), none)
  | .bswap d a => (0x37, put 16 (d.val) + put 11 (a.val), none)

/-- Opcode, bits [20:0] and extension word of a address operation. -/
def AddressOp.enc : AddressOp → Nat × Nat × Option Nat
  | .anop => (0, 0, none)
  | .aadd d a b => (0x01, put 16 (d.val) + put 11 (a.val) + put 6 (b.val), none)
  | .asub d a b => (0x02, put 16 (d.val) + put 11 (a.val) + put 6 (b.val), none)
  | .aadda d a b => (0x03, put 16 (d.val) + put 11 (a.val) + put 6 (b.val), none)
  | .amov d a => (0x04, put 16 (d.val) + put 11 (a.val), none)
  | .asets d a => (0x05, put 16 (d.val) + put 11 (a.val), none)
  | .agets d a => (0x06, put 16 (d.val) + put 11 (a.val), none)
  | .aaddi d a i => (0x07, put 16 (d.val) + put 11 (a.val) + i.toNat, none)
  | .ali d imm => (0x08, put 16 (d.val), some (imm.toNat))
  | .alih d imm => (0x09, put 16 (d.val), some (imm.toNat))
  | .aaddx d a imm => (0x0A, put 16 (d.val) + put 11 (a.val), some (imm.toNat))
  | .ldspI8 d ab pi i => (0x10, put 16 (d.val) + put 12 (ab.val) + put 11 (bit1 pi) + i.toNat, none)
  | .ldspI16 d ab pi i => (0x11, put 16 (d.val) + put 12 (ab.val) + put 11 (bit1 pi) + i.toNat, none)
  | .ldspI32 d ab pi i => (0x12, put 16 (d.val) + put 12 (ab.val) + put 11 (bit1 pi) + i.toNat, none)
  | .ldspI64 d ab pi i => (0x13, put 16 (d.val) + put 12 (ab.val) + put 11 (bit1 pi) + i.toNat, none)
  | .ldspUi8 d ab pi i => (0x14, put 16 (d.val) + put 12 (ab.val) + put 11 (bit1 pi) + i.toNat, none)
  | .ldspUi16 d ab pi i => (0x15, put 16 (d.val) + put 12 (ab.val) + put 11 (bit1 pi) + i.toNat, none)
  | .ldspUi32 d ab pi i => (0x16, put 16 (d.val) + put 12 (ab.val) + put 11 (bit1 pi) + i.toNat, none)
  | .stspI8 d ab pi i => (0x17, put 16 (d.val) + put 12 (ab.val) + put 11 (bit1 pi) + i.toNat, none)
  | .stspI16 d ab pi i => (0x18, put 16 (d.val) + put 12 (ab.val) + put 11 (bit1 pi) + i.toNat, none)
  | .stspI32 d ab pi i => (0x19, put 16 (d.val) + put 12 (ab.val) + put 11 (bit1 pi) + i.toNat, none)
  | .stspI64 d ab pi i => (0x1A, put 16 (d.val) + put 12 (ab.val) + put 11 (bit1 pi) + i.toNat, none)
  | .ldgI8 d ab pi i => (0x20, put 16 (d.val) + put 12 (ab.val) + put 11 (bit1 pi) + i.toNat, none)
  | .ldgI16 d ab pi i => (0x21, put 16 (d.val) + put 12 (ab.val) + put 11 (bit1 pi) + i.toNat, none)
  | .ldgI32 d ab pi i => (0x22, put 16 (d.val) + put 12 (ab.val) + put 11 (bit1 pi) + i.toNat, none)
  | .ldgI64 d ab pi i => (0x23, put 16 (d.val) + put 12 (ab.val) + put 11 (bit1 pi) + i.toNat, none)
  | .ldgUi8 d ab pi i => (0x24, put 16 (d.val) + put 12 (ab.val) + put 11 (bit1 pi) + i.toNat, none)
  | .ldgUi16 d ab pi i => (0x25, put 16 (d.val) + put 12 (ab.val) + put 11 (bit1 pi) + i.toNat, none)
  | .ldgUi32 d ab pi i => (0x26, put 16 (d.val) + put 12 (ab.val) + put 11 (bit1 pi) + i.toNat, none)
  | .stgI8 d ab pi i => (0x27, put 16 (d.val) + put 12 (ab.val) + put 11 (bit1 pi) + i.toNat, none)
  | .stgI16 d ab pi i => (0x28, put 16 (d.val) + put 12 (ab.val) + put 11 (bit1 pi) + i.toNat, none)
  | .stgI32 d ab pi i => (0x29, put 16 (d.val) + put 12 (ab.val) + put 11 (bit1 pi) + i.toNat, none)
  | .stgI64 d ab pi i => (0x2A, put 16 (d.val) + put 12 (ab.val) + put 11 (bit1 pi) + i.toNat, none)
  | .ldf d ab pi i => (0x30, put 16 (d.val) + put 12 (ab.val) + put 11 (bit1 pi) + i.toNat, none)
  | .ldfe d ab pi i => (0x31, put 16 (d.val) + put 12 (ab.val) + put 11 (bit1 pi) + i.toNat, none)
  | .ste d ab pi i => (0x32, put 16 (d.val) + put 12 (ab.val) + put 11 (bit1 pi) + i.toNat, none)
  | .feemp ab pi i => (0x33, put 12 (ab.val) + put 11 (bit1 pi) + i.toNat, none)
  | .waita d ab pi i => (0x34, put 16 (d.val) + put 12 (ab.val) + put 11 (bit1 pi) + i.toNat, none)
  | .amadd d a b w => (0x38, put 16 (d.val) + put 11 (a.val) + put 6 (b.val) + bit1 w, none)
  | .amand d a b w => (0x39, put 16 (d.val) + put 11 (a.val) + put 6 (b.val) + bit1 w, none)
  | .amor d a b w => (0x3A, put 16 (d.val) + put 11 (a.val) + put 6 (b.val) + bit1 w, none)
  | .amxor d a b w => (0x3B, put 16 (d.val) + put 11 (a.val) + put 6 (b.val) + bit1 w, none)
  | .ammin d a b w => (0x3C, put 16 (d.val) + put 11 (a.val) + put 6 (b.val) + bit1 w, none)
  | .ammax d a b w => (0x3D, put 16 (d.val) + put 11 (a.val) + put 6 (b.val) + bit1 w, none)
  | .amswp d a b w => (0x3E, put 16 (d.val) + put 11 (a.val) + put 6 (b.val) + bit1 w, none)
  | .amcas d a b w => (0x3F, put 16 (d.val) + put 11 (a.val) + put 6 (b.val) + bit1 w, none)
  | .ldaqI32 d ab sc i => (0x40, put 16 (d.val) + put 12 (ab.val) + put 9 (encScope sc) + i.toNat, none)
  | .ldaqI64 d ab sc i => (0x41, put 16 (d.val) + put 12 (ab.val) + put 9 (encScope sc) + i.toNat, none)
  | .strlI32 d ab sc i => (0x42, put 16 (d.val) + put 12 (ab.val) + put 9 (encScope sc) + i.toNat, none)
  | .strlI64 d ab sc i => (0x43, put 16 (d.val) + put 12 (ab.val) + put 9 (encScope sc) + i.toNat, none)
  | .qmark => (0x44, 0, none)
  | .l1fl sc => (0x45, encScope sc, none)
  | .l1inv sc => (0x46, encScope sc, none)
  | .l1fll ab i => (0x47, put 12 (ab.val) + i.toNat, none)
  | .l1invl ab i => (0x48, put 12 (ab.val) + i.toNat, none)
  | .ldpf ab i => (0x49, put 12 (ab.val) + i.toNat, none)

/-- Opcode, bits [20:0] and extension word of a vector operation. -/
def VectorOp.enc : VectorOp → Nat × Nat × Option Nat
  | .vnop => (0, 0, none)
  | .vadd vd va vb t => (0x01, put 16 (vd.val) + put 10 (va.val) + put 4 (vb.val) + encTy t, none)
  | .vsub vd va vb t => (0x02, put 16 (vd.val) + put 10 (va.val) + put 4 (vb.val) + encTy t, none)
  | .vmul vd va vb t => (0x03, put 16 (vd.val) + put 10 (va.val) + put 4 (vb.val) + encTy t, none)
  | .vmulh vd va vb t => (0x04, put 16 (vd.val) + put 10 (va.val) + put 4 (vb.val) + encTy t, none)
  | .vadds vd va vb t => (0x05, put 16 (vd.val) + put 10 (va.val) + put 4 (vb.val) + encTy t, none)
  | .vsubs vd va vb t => (0x06, put 16 (vd.val) + put 10 (va.val) + put 4 (vb.val) + encTy t, none)
  | .vmin vd va vb t => (0x07, put 16 (vd.val) + put 10 (va.val) + put 4 (vb.val) + encTy t, none)
  | .vmax vd va vb t => (0x08, put 16 (vd.val) + put 10 (va.val) + put 4 (vb.val) + encTy t, none)
  | .vabs vd va t => (0x09, put 16 (vd.val) + put 10 (va.val) + encTy t, none)
  | .vneg vd va t => (0x0A, put 16 (vd.val) + put 10 (va.val) + encTy t, none)
  | .vand vd va vb t => (0x0B, put 16 (vd.val) + put 10 (va.val) + put 4 (vb.val) + encTy t, none)
  | .vor vd va vb t => (0x0C, put 16 (vd.val) + put 10 (va.val) + put 4 (vb.val) + encTy t, none)
  | .vxor vd va vb t => (0x0D, put 16 (vd.val) + put 10 (va.val) + put 4 (vb.val) + encTy t, none)
  | .vnot vd va t => (0x0E, put 16 (vd.val) + put 10 (va.val) + encTy t, none)
  | .vshl vd va vb t => (0x0F, put 16 (vd.val) + put 10 (va.val) + put 4 (vb.val) + encTy t, none)
  | .vshr vd va vb t => (0x10, put 16 (vd.val) + put 10 (va.val) + put 4 (vb.val) + encTy t, none)
  | .vsra vd va vb t => (0x11, put 16 (vd.val) + put 10 (va.val) + put 4 (vb.val) + encTy t, none)
  | .vavg vd va vb t => (0x12, put 16 (vd.val) + put 10 (va.val) + put 4 (vb.val) + encTy t, none)
  | .vabsd vd va vb t => (0x13, put 16 (vd.val) + put 10 (va.val) + put 4 (vb.val) + encTy t, none)
  | .vclz vd va t => (0x14, put 16 (vd.val) + put 10 (va.val) + encTy t, none)
  | .vpopc vd va t => (0x15, put 16 (vd.val) + put 10 (va.val) + encTy t, none)
  | .vmov vd va t => (0x16, put 16 (vd.val) + put 10 (va.val) + encTy t, none)
  | .vrsum vd va t => (0x17, put 16 (vd.val) + put 10 (va.val) + encTy t, none)
  | .vrmax vd va t => (0x18, put 16 (vd.val) + put 10 (va.val) + encTy t, none)
  | .vrmin vd va t => (0x19, put 16 (vd.val) + put 10 (va.val) + encTy t, none)
  | .vperm vd va vb t => (0x1A, put 16 (vd.val) + put 10 (va.val) + put 4 (vb.val) + encTy t, none)
  | .vzip vd va vb t => (0x1B, put 16 (vd.val) + put 10 (va.val) + put 4 (vb.val) + encTy t, none)
  | .vunzip vd va vb t => (0x1C, put 16 (vd.val) + put 10 (va.val) + put 4 (vb.val) + encTy t, none)
  | .vmaxexp va t => (0x1D, put 10 (va.val) + encTy t, none)
  | .vseedx vd va t => (0x1E, put 16 (vd.val) + put 10 (va.val) + encTy t, none)
  | .vseedc vd va vb t => (0x1F, put 16 (vd.val) + put 10 (va.val) + put 4 (vb.val) + encTy t, none)
  | .vfma vd va vb t vc rm => (0x20, put 16 (vd.val) + put 10 (va.val) + put 4 (vb.val) + encTy t, some (put 26 (vc.val) + put 24 (encRm rm)))
  | .vfms vd va vb t vc rm => (0x21, put 16 (vd.val) + put 10 (va.val) + put 4 (vb.val) + encTy t, some (put 26 (vc.val) + put 24 (encRm rm)))
  | .vfnma vd va vb t vc rm => (0x22, put 16 (vd.val) + put 10 (va.val) + put 4 (vb.val) + encTy t, some (put 26 (vc.val) + put 24 (encRm rm)))
  | .vfnms vd va vb t vc rm => (0x23, put 16 (vd.val) + put 10 (va.val) + put 4 (vb.val) + encTy t, some (put 26 (vc.val) + put 24 (encRm rm)))
  | .vsel vd va vb t ps => (0x24, put 16 (vd.val) + put 10 (va.val) + put 4 (vb.val) + encTy t, some (put 21 (ps.val)))
  | .vaddr vd va vb t rm => (0x25, put 16 (vd.val) + put 10 (va.val) + put 4 (vb.val) + encTy t, some (put 24 (encRm rm)))
  | .vmulr vd va vb t rm => (0x26, put 16 (vd.val) + put 10 (va.val) + put 4 (vb.val) + encTy t, some (put 24 (encRm rm)))
  | .vcvt vd va ts td sc rm part => (0x27, put 16 (vd.val) + put 10 (va.val) + put 4 (encTy ts) + encTy td, some (put 26 (sc.toNat) + put 24 (encRm rm) + put 21 (part.val)))
  | .vaddi vd va t imm => (0x28, put 16 (vd.val) + put 10 (va.val) + encTy t, some (imm.toNat))
  | .vmuli vd va t imm => (0x29, put 16 (vd.val) + put 10 (va.val) + encTy t, some (imm.toNat))
  | .vandi vd va t imm => (0x2A, put 16 (vd.val) + put 10 (va.val) + encTy t, some (imm.toNat))
  | .vori vd va t imm => (0x2B, put 16 (vd.val) + put 10 (va.val) + encTy t, some (imm.toNat))
  | .vshli vd va t imm => (0x2C, put 16 (vd.val) + put 10 (va.val) + encTy t, some (imm.toNat))
  | .vshri vd va t imm => (0x2D, put 16 (vd.val) + put 10 (va.val) + encTy t, some (imm.toNat))
  | .vsrai vd va t imm => (0x2E, put 16 (vd.val) + put 10 (va.val) + encTy t, some (imm.toNat))
  | .vbcst vd t imm => (0x2F, put 16 (vd.val) + encTy t, some (imm.toNat))
  | .vcmpeq pd va vb t => (0x30, put 18 (pd.val) + put 10 (va.val) + put 4 (vb.val) + encTy t, none)
  | .vcmpne pd va vb t => (0x31, put 18 (pd.val) + put 10 (va.val) + put 4 (vb.val) + encTy t, none)
  | .vcmplt pd va vb t => (0x32, put 18 (pd.val) + put 10 (va.val) + put 4 (vb.val) + encTy t, none)
  | .vcmple pd va vb t => (0x33, put 18 (pd.val) + put 10 (va.val) + put 4 (vb.val) + encTy t, none)
  | .vcmpgt pd va vb t => (0x34, put 18 (pd.val) + put 10 (va.val) + put 4 (vb.val) + encTy t, none)
  | .vcmpge pd va vb t => (0x35, put 18 (pd.val) + put 10 (va.val) + put 4 (vb.val) + encTy t, none)
  | .vcmpun pd va vb t => (0x36, put 18 (pd.val) + put 10 (va.val) + put 4 (vb.val) + encTy t, none)
  | .vclass pd va vb t => (0x37, put 18 (pd.val) + put 10 (va.val) + put 4 (vb.val) + encTy t, none)
  | .vpand pd pa pb => (0x38, put 18 (pd.val) + put 10 (pa.val) + put 4 (pb.val), none)
  | .vpor pd pa pb => (0x39, put 18 (pd.val) + put 10 (pa.val) + put 4 (pb.val), none)
  | .vpxor pd pa pb => (0x3A, put 18 (pd.val) + put 10 (pa.val) + put 4 (pb.val), none)
  | .vpandn pd pa pb => (0x3B, put 18 (pd.val) + put 10 (pa.val) + put 4 (pb.val), none)
  | .vexp vd va t => (0x3C, put 16 (vd.val) + put 10 (va.val) + encTy t, none)
  | .vexp2 vd va t => (0x3D, put 16 (vd.val) + put 10 (va.val) + encTy t, none)
  | .vlog vd va t => (0x3E, put 16 (vd.val) + put 10 (va.val) + encTy t, none)
  | .vlog2 vd va t => (0x3F, put 16 (vd.val) + put 10 (va.val) + encTy t, none)
  | .vrcp vd va t => (0x40, put 16 (vd.val) + put 10 (va.val) + encTy t, none)
  | .vrsq vd va t => (0x41, put 16 (vd.val) + put 10 (va.val) + encTy t, none)
  | .vsqrt vd va t => (0x42, put 16 (vd.val) + put 10 (va.val) + encTy t, none)
  | .vtanh vd va t => (0x43, put 16 (vd.val) + put 10 (va.val) + encTy t, none)
  | .vsigm vd va t => (0x44, put 16 (vd.val) + put 10 (va.val) + encTy t, none)
  | .vsilu vd va t => (0x45, put 16 (vd.val) + put 10 (va.val) + encTy t, none)
  | .vgelu vd va t => (0x46, put 16 (vd.val) + put 10 (va.val) + encTy t, none)
  | .vsin vd va t => (0x47, put 16 (vd.val) + put 10 (va.val) + encTy t, none)
  | .vcos vd va t => (0x48, put 16 (vd.val) + put 10 (va.val) + encTy t, none)
  | .verf vd va t => (0x49, put 16 (vd.val) + put 10 (va.val) + encTy t, none)
  | .vtbld h va vb => (0x4A, put 17 (h.val) + put 10 (va.val) + put 4 (vb.val), none)
  | .vtwr vd x k td ts rm => (0x4B, put 16 (vd.val) + put 14 (x.val) + put 10 (k.val) + put 6 (encTy td) + put 2 (encTy ts) + encRm rm, none)
  | .vtrd vd x k td ts rm => (0x4C, put 16 (vd.val) + put 14 (x.val) + put 10 (k.val) + put 6 (encTy td) + put 2 (encTy ts) + encRm rm, none)
  | .vld vd ab sp pi i => (0x4D, put 16 (vd.val) + put 12 (ab.val) + put 11 (bit1 sp) + put 10 (bit1 pi) + i.toNat, none)
  | .vst vd ab sp pi i => (0x4E, put 16 (vd.val) + put 12 (ab.val) + put 11 (bit1 sp) + put 10 (bit1 pi) + i.toNat, none)
  | .vldb vd ab sp pi i => (0x4F, put 16 (vd.val) + put 12 (ab.val) + put 11 (bit1 sp) + put 10 (bit1 pi) + i.toNat, none)
  | .vldnt vd ab sp pi i => (0x50, put 16 (vd.val) + put 12 (ab.val) + put 11 (bit1 sp) + put 10 (bit1 pi) + i.toNat, none)
  | .vstnt vd ab sp pi i => (0x51, put 16 (vd.val) + put 12 (ab.val) + put 11 (bit1 sp) + put 10 (bit1 pi) + i.toNat, none)
  | .vgath vd ab sp vi es => (0x52, put 16 (vd.val) + put 12 (ab.val) + put 11 (bit1 sp) + put 5 (vi.val) + put 3 (encWidth es), none)
  | .vscat vd ab sp vi es => (0x53, put 16 (vd.val) + put 12 (ab.val) + put 11 (bit1 sp) + put 5 (vi.val) + put 3 (encWidth es), none)
  | .vscata vd ab sp vi es => (0x54, put 16 (vd.val) + put 12 (ab.val) + put 11 (bit1 sp) + put 5 (vi.val) + put 3 (encWidth es), none)
  | .vwiden vd va t => (0x55, put 16 (vd.val) + put 10 (va.val) + encTy t, none)
  | .vnarrow vd va vb t => (0x56, put 16 (vd.val) + put 10 (va.val) + put 4 (vb.val) + encTy t, none)
  | .vpack vd va vb t => (0x57, put 16 (vd.val) + put 10 (va.val) + put 4 (vb.val) + encTy t, none)
  | .vunpack vd va t => (0x58, put 16 (vd.val) + put 10 (va.val) + encTy t, none)
  | .vsumw vd va vb t => (0x59, put 16 (vd.val) + put 10 (va.val) + put 4 (vb.val) + encTy t, none)
  | .vdot2 vd va vb t => (0x5A, put 16 (vd.val) + put 10 (va.val) + put 4 (vb.val) + encTy t, none)
  | .vscale vd va vb t => (0x5B, put 16 (vd.val) + put 10 (va.val) + put 4 (vb.val) + encTy t, none)
  | .vround vd va t => (0x5C, put 16 (vd.val) + put 10 (va.val) + encTy t, none)
  | .vfloor vd va t => (0x5D, put 16 (vd.val) + put 10 (va.val) + encTy t, none)
  | .vslide vd va vb t => (0x5E, put 16 (vd.val) + put 10 (va.val) + put 4 (vb.val) + encTy t, none)
  | .vrev vd va t => (0x5F, put 16 (vd.val) + put 10 (va.val) + encTy t, none)

/-- Opcode, bits [20:0] and extension word of a matrix operation. -/
def MatrixOp.enc : MatrixOp → Nat × Nat × Option Nat
  | .mnop => (0, 0, none)
  | .mcbset s sel => (0x01, put 16 (s.val) + put 13 (sel.val), none)
  | .mlut ht hw row col sh clr => (0x02, put 17 (ht.val) + put 13 (hw.val) + put 7 (row.val) + put 3 (col.val) + put 1 (sh.val) + bit1 clr, none)
  | .mlutg ht hw row col sh clr hp hs => (0x03, put 17 (ht.val) + put 13 (hw.val) + put 7 (row.val) + put 3 (col.val) + put 1 (sh.val) + bit1 clr, some (put 28 (hp.val) + put 24 (hs.val)))
  | .mluts ht hw row col sh clr => (0x04, put 17 (ht.val) + put 13 (hw.val) + put 7 (row.val) + put 3 (col.val) + put 1 (sh.val) + bit1 clr, none)
  | .mlutsg ht hw row col sh clr hp hs => (0x05, put 17 (ht.val) + put 13 (hw.val) + put 7 (row.val) + put 3 (col.val) + put 1 (sh.val) + bit1 clr, some (put 28 (hp.val) + put 24 (hs.val)))
  | .maclr row col sh => (0x06, put 7 (row.val) + put 3 (col.val) + put 1 (sh.val), none)
  | .mmask ht => (0x07, put 17 (ht.val), none)
  | .mstat s n => (0x08, put 16 (s.val) + put 13 (n.val), none)
  | .mcbget s sel => (0x09, put 16 (s.val) + put 13 (sel.val), none)
  | .macrd vd row col => (0x0A, put 16 (vd.val) + put 10 (row.val) + put 6 (col.val), none)
  | .macwr vd row col => (0x0B, put 16 (vd.val) + put 10 (row.val) + put 6 (col.val), none)
  | .mbias vd row col => (0x0C, put 16 (vd.val) + put 10 (row.val) + put 6 (col.val), none)
  | .mreset => (0x0D, 0, none)
  | .mlutk ht hw row col sh clr => (0x0E, put 17 (ht.val) + put 13 (hw.val) + put 7 (row.val) + put 3 (col.val) + put 1 (sh.val) + bit1 clr, none)
  | .mlutgk ht hw row col sh clr hp hs => (0x0F, put 17 (ht.val) + put 13 (hw.val) + put 7 (row.val) + put 3 (col.val) + put 1 (sh.val) + bit1 clr, some (put 28 (hp.val) + put 24 (hs.val)))

/-- Opcode, bits [20:0] and extension word of a copy operation. -/
def CopyOp.enc : CopyOp → Nat × Nat × Option Nat
  | .ynop => (0, 0, none)
  | .ycopy ab pi lock sc => (0x01, put 17 (ab.val) + put 16 (bit1 pi) + put 15 (bit1 lock) + put 12 (encScope sc), none)
  | .ypush ab pi lock sc => (0x02, put 17 (ab.val) + put 16 (bit1 pi) + put 15 (bit1 lock) + put 12 (encScope sc), none)
  | .yacc ab pi lock sc => (0x03, put 17 (ab.val) + put 16 (bit1 pi) + put 15 (bit1 lock) + put 12 (encScope sc), none)
  | .yaccp ab pi lock sc => (0x04, put 17 (ab.val) + put 16 (bit1 pi) + put 15 (bit1 lock) + put 12 (encScope sc), none)
  | .ymx4 ab pi lock sc => (0x05, put 17 (ab.val) + put 16 (bit1 pi) + put 15 (bit1 lock) + put 12 (encScope sc), none)
  | .ysadd ab pi lock sc => (0x06, put 17 (ab.val) + put 16 (bit1 pi) + put 15 (bit1 lock) + put 12 (encScope sc), none)
  | .yatom ab pi lock sc => (0x07, put 17 (ab.val) + put 16 (bit1 pi) + put 15 (bit1 lock) + put 12 (encScope sc), none)
  | .ypref ab pi lock sc => (0x08, put 17 (ab.val) + put 16 (bit1 pi) + put 15 (bit1 lock) + put 12 (encScope sc), none)
  | .yfill ab pi lock sc => (0x09, put 17 (ab.val) + put 16 (bit1 pi) + put 15 (bit1 lock) + put 12 (encScope sc), none)
  | .yrem ab pi lock sc => (0x0A, put 17 (ab.val) + put 16 (bit1 pi) + put 15 (bit1 lock) + put 12 (encScope sc), none)
  | .ygath ab pi lock sc => (0x0B, put 17 (ab.val) + put 16 (bit1 pi) + put 15 (bit1 lock) + put 12 (encScope sc), none)
  | .yscat ab pi lock sc => (0x0C, put 17 (ab.val) + put 16 (bit1 pi) + put 15 (bit1 lock) + put 12 (encScope sc), none)
  | .yline ab pi lock sc => (0x0D, put 17 (ab.val) + put 16 (bit1 pi) + put 15 (bit1 lock) + put 12 (encScope sc), none)
  | .ycancel => (0x0E, 0, none)
  | .yldv ab pi vd => (0x0F, put 17 (ab.val) + put 16 (bit1 pi) + put 7 (vd.val), none)

def Op.enc : Op → Nat × Nat × Option Nat
  | .c o => o.enc
  | .s o => o.enc
  | .a o => o.enc
  | .v _ o => o.enc
  | .m o => o.enc
  | .y _ o => o.enc

/-- The slot, the slot word and the extension word of a slot (02_encodings.md R25, R46, R49). -/
def Slot.encode (x : Slot) : Fin 8 × Nat × Option Nat :=
  let e := x.op.enc
  (x.op.slot, e.1 * 2 ^ 25 + encGuard x.g * 2 ^ 21 + e.2.1, e.2.2)

/-- Encoder: the words of an instruction; none for a step of another agent. -/
def encode (i : Instr) : Option (Fin 8 × Nat × Option Nat) := i.slot.map Slot.encode

/-- Encoding generations (02_encodings.md R60). -/
inductive Gen where
  | g1 | g2 | g3
  deriving DecidableEq, Repr

/-- Opcodes absent from G2, by class (Table 2-12). -/
def absentG2 : Cls → Nat → Bool
  | .C, op => op == 0x0F || op == 0x10 || op == 0x11 || op == 0x13 || op == 0x1C
  | .S, _ => false
  | .A, _ => false
  | .V, op => op == 0x1E || op == 0x1F || decide (0x20 ≤ op ∧ op ≤ 0x2F)
  | .M, op => op == 0x03 || op == 0x04 || op == 0x05 || op == 0x0F
  | .Y, op => op == 0x06 || op == 0x08 || op == 0x07

/-- Opcodes absent from G1, by class: those absent from G2, VTWR, VTRD, YMX4, YLINE and the GEXT forms (Table 2-12). -/
def absentG1 (c : Cls) (op : Nat) : Bool :=
  absentG2 c op ||
  match c with
  | .C => false
  | .S => decide (0x2B ≤ op ∧ op ≤ 0x30)
  | .A => decide (0x08 ≤ op ∧ op ≤ 0x0A)
  | .V => op == 0x4B || op == 0x4C
  | .M => false
  | .Y => op == 0x05 || op == 0x0D

/-- Highest bypass code a vector source field may hold: none in G1, 35 in G2, 39 in G3 (Table 2-12, R15). -/
def Gen.maxSrc : Gen → Nat
  | .g1 => 31 | .g2 => 35 | .g3 => 39

/-- Vector source fields of a vector word by format; VTIL and VMEM have none, VGAT has VI only (Table 2-1). -/
def vecSources (op w : Nat) : List Nat :=
  if op == 0x4B || op == 0x4C || decide (0x4D ≤ op ∧ op ≤ 0x51) then []
  else if decide (0x52 ≤ op ∧ op ≤ 0x54) then [fld w 5 6]
  else if decide (0x38 ≤ op ∧ op ≤ 0x3B) then []
  else [fld w 10 6, fld w 4 6]

/-- What a generation refuses beyond G3 in a slot word (Table 2-12, R61, R62). -/
def genRefuses (gen : Gen) (k : Fin 8) (w : Nat) : Option Reject :=
  let op := w / 2 ^ 25
  let c := clsOf k
  match gen with
  | .g3 => none
  | .g2 =>
    if c == .V && decide (0x60 ≤ op ∧ op ≤ 0x63) then some .legacy
    else if absentG2 c op then some .unassigned
    else if c == .V && (vecSources op w).any (fun n => decide (n > Gen.g2.maxSrc)) then some .badField
    else if c == .V && (op == 0x4B || op == 0x4C) && fld w 0 2 == 2 then some .badField
    else none
  | .g1 =>
    if c == .V && decide (0x60 ≤ op ∧ op ≤ 0x63) then some .legacy
    else if absentG1 c op then some .unassigned
    else if c == .V && (vecSources op w).any (fun n => decide (n > Gen.g1.maxSrc)) then some .badField
    else none

/-- Who decodes: an engine thread under its generation, or a Taproot core, which decodes G3 (02_encodings.md R60, 14_package.md R368). -/
structure Profile where
  gen : Gen
  taproot : Bool
  deriving DecidableEq, Repr

/-- Control opcodes the Taproot profile lacks (14_package.md Table 14-2). -/
def taprootLacksControl (op : Nat) : Bool :=
  op == 0x02 || op == 0x06 || op == 0x0B || decide (0x0F ≤ op ∧ op ≤ 0x16) || decide (0x18 ≤ op ∧ op ≤ 0x22) ||
    op == 0x24 || op == 0x25 || op == 0x31

/-- Address opcodes the Taproot profile lacks (14_package.md Table 14-2). -/
def taprootLacksAddress (op : Nat) : Bool :=
  decide (0x10 ≤ op ∧ op ≤ 0x1A) || decide (0x30 ≤ op ∧ op ≤ 0x34)

/-- What the Taproot profile refuses, and what only it has: slots 3 to 7 must be absent, a guard is 0b0000 or 0b1000
(14_package.md R367, R368, R371). -/
def profileRefuses (taproot : Bool) (k : Fin 8) (w : Nat) : Option Reject :=
  let op := w / 2 ^ 25
  match taproot, clsOf k with
  | false, .C => if decide (0x38 ≤ op ∧ op ≤ 0x3A) then some .unassigned else none
  | false, _ => none
  | true, .V => some .unassigned
  | true, .M => some .unassigned
  | true, .Y => some .unassigned
  | true, .C => if taprootLacksControl op then some .unassigned else if fld w 21 3 ≠ 0 then some .badField else none
  | true, .S =>
    if decide (0x31 ≤ op ∧ op ≤ 0x34) || op == 0x36 then some .unassigned else if fld w 21 3 ≠ 0 then some .badField else none
  | true, .A => if taprootLacksAddress op then some .unassigned else if fld w 21 3 ≠ 0 then some .badField else none

/-- One slot word in a thread's own generation and profile. -/
def decodeFor (p : Profile) (k : Fin 8) (w : Nat) (x : Option Nat) : Except Reject Slot :=
  match profileRefuses p.taproot k w with
  | some r => .error r
  | none =>
    match genRefuses p.gen k w with
    | some r => .error r
    | none => decodeSlot k w x

/-- The rows of the opcode table by class: the number of bits a row fixes, their mask, and the opcodes of the rows that share it; below
the opcode every fixed bit is zero (02_encodings.md Tables 2-4 to 2-8). -/
def tableMasks : Cls → List (Nat × Nat × List Nat)
  | .C => [(32, 0xFFFFFFFF, [0x0]), (25, 0xFE03FFFF, [0x1]), (21, 0xFE003FFF, [0x2]), (23, 0xFE03CFFF, [0x3]), (22,
      0xFE03F1FF, [0x4]), (23, 0xFE1F07FF, [0x5, 0x24, 0x25, 0x28]), (28, 0xFE1FFFFF, [0x6, 0x31, 0x38, 0x39]), (12, 0xFE1F0000, [0x7, 0x20, 0x30, 0x32, 0x34, 0x35, 0x36, 0x37]), (7, 0xFE000000, [0x8, 0xc]), (18, 0xFE0007FF, [0x9, 0xa, 0xd, 0xe, 0x10,
      0x11, 0x14, 0x15, 0x16, 0x18, 0x1c, 0x1d, 0x1e, 0x27, 0x3a]), (20, 0xFE00FFF8, [0xb]), (22, 0xFE00FFFE, [0xf]), (13, 0xFE00003F, [0x12]), (12, 0xFE00F800, [0x19, 0x1a, 0x1b, 0x33]), (23, 0xFE1FFFE0, [0x1f]), (14, 0xFE18F800, [0x21, 0x22]), (20,
      0xFE1F07F8, [0x23]), (15, 0xFE1F0038, [0x26])]
  | .S => [(32, 0xFFFFFFFF, [0x0]), (13, 0xFE00003F, [0x1, 0x2, 0x3, 0x4, 0x5, 0x6, 0x7, 0x8, 0x9, 0xa, 0xb, 0xc, 0xd, 0xe, 0xf,
      0x10, 0x11, 0x12, 0x13, 0x14, 0x15, 0x16]), (18, 0xFE0007FF, [0x17, 0x18, 0x19, 0x1a, 0x31, 0x32, 0x33, 0x34, 0x37]), (16,
      0xFE0007FC, [0x1b, 0x1c]), (7, 0xFE000000, [0x1d, 0x1e, 0x1f, 0x20, 0x21, 0x22, 0x23, 0x24, 0x25, 0x26, 0x27, 0x28, 0x29,
      0x2a]), (23, 0xFE00FFFF, [0x35, 0x36])]
  | .A => [(32, 0xFFFFFFFF, [0x0]), (13, 0xFE00003F, [0x1, 0x2, 0x3]), (18, 0xFE0007FF, [0x4, 0x5, 0x6]), (7, 0xFE000000, [0x7, 0x10, 0x11, 0x12, 0x13, 0x14, 0x15, 0x16, 0x17, 0x18, 0x19, 0x1a, 0x20, 0x21, 0x22, 0x23, 0x24, 0x25, 0x26, 0x27, 0x28, 0x29,
      0x2a, 0x30, 0x31, 0x32, 0x34, 0x40, 0x41, 0x42, 0x43]), (12, 0xFE1F0000, [0x33]), (12, 0xFE00003E, [0x38, 0x39, 0x3a, 0x3b,
      0x3c, 0x3d, 0x3e, 0x3f]), (28, 0xFE1FFFFF, [0x44]), (25, 0xFE1FFFF8, [0x45, 0x46]), (13, 0xFE1F0800, [0x47, 0x48, 0x49])]
  | .V => [(32, 0xFFFFFFFF, [0x0]), (7, 0xFE000000, [0x1, 0x2, 0x3, 0x4, 0x5, 0x6, 0x7, 0x8, 0xb, 0xc, 0xd, 0xf, 0x10, 0x11, 0x12,
      0x13, 0x1a, 0x1b, 0x1c, 0x1f, 0x4b, 0x4c, 0x4d, 0x4e, 0x4f, 0x50, 0x51, 0x56, 0x57, 0x59, 0x5a, 0x5b, 0x5e]), (13, 0xFE0003F0, [0x9,
      0xa, 0xe, 0x14, 0x15, 0x16, 0x17, 0x18, 0x19, 0x1e, 0x3c, 0x3d, 0x3e, 0x3f, 0x40, 0x41, 0x42, 0x43, 0x44, 0x45, 0x46, 0x47, 0x48, 0x49,
      0x55, 0x58, 0x5c, 0x5d, 0x5f]), (18, 0xFE1F03F0, [0x1d]), (9, 0xFE030000, [0x30, 0x31, 0x32, 0x33, 0x34, 0x35, 0x36, 0x37]),
      (13, 0xFE03000F, [0x38, 0x39, 0x3a, 0x3b]), (12, 0xFE01000F, [0x4a]), (10, 0xFE000007, [0x52, 0x53, 0x54])]
  | .M => [(32, 0xFFFFFFFF, [0x0]), (20, 0xFE001FFF, [0x1, 0x8, 0x9]), (7, 0xFE000000, [0x2, 0x4, 0xe]), (16, 0xFE1FE001, [0x6]), (24, 0xFE01FFFF, [0x7]), (13, 0xFE00003F, [0xa, 0xb, 0xc]), (28, 0xFE1FFFFF, [0xd])]
  | .Y => [(32, 0xFFFFFFFF, [0x0]), (19, 0xFE000FFF, [0x1, 0x2, 0x3, 0x4, 0x5, 0x6, 0x7, 0x8, 0x9, 0xa, 0xb, 0xc, 0xd]), (28,
      0xFE1FFFFF, [0xe]), (18, 0xFE00F07F, [0xf])]

/-- How many bits of a word its row fixes in the class of slot `k`; the opcode alone where the table gives no pattern. -/
def fixedBits (k : Fin 8) (w : Nat) : Nat :=
  (tableMasks (clsOf k)).foldl (fun n r =>
    if w &&& r.2.1 &&& 0x1FFFFFF = 0 ∧ r.2.2.contains (w / 2 ^ 25) then Nat.max n r.1 else n) 7

/-- The classes a bare slot word is tried as by `decodeTableWord`. -/
def tableSlots : List (Fin 8) := [3, 1, 2, 0, 5, 6]

/-- The slot of a list in which a word decodes and whose row fixes the most of its bits, the first among equals. -/
def decodeBest (w : Nat) (x : Option Nat) (l : List (Fin 8)) : Option Slot :=
  (l.foldl (fun (best : Option (Nat × Slot)) k =>
    match decodeSlot k w x with
    | .error _ => best
    | .ok i =>
      match best with
      | none => some (fixedBits k w, i)
      | some b => if b.1 < fixedBits k w then some (fixedBits k w, i) else some b) none).map (·.2)

/-- The instruction a table word stands for. A slot word carries no class (02_encodings.md R11, R52): of the classes in which it decodes the
one whose row fixes the most of its bits is taken, and among equals the first of `tableSlots`, without an extension word first and then with
one (the bits above the first word). DESIGN CHOICE, log 5. -/
def decodeTableSlot (w : Nat) : Option Slot :=
  match decodeBest (w % 2 ^ 32) none tableSlots with
  | some i => some i
  | none => decodeBest (w % 2 ^ 32) (some (w / 2 ^ 32)) tableSlots

/-- The instruction a table word stands for (`decodeTableSlot`); a slot word is 32 bits, so `nbits` adds nothing. -/
noncomputable def decodeTableWord (nbits w : Nat) : Option Instr :=
  let _ := nbits
  (decodeTableSlot w).map Slot.instr

end Sys2Proof
end

