-- ==== Sys2Proof/Machine/CoreState.lean ====
section
/-! DEFINITION. The state of one core: registers, rings, engines, queues, memory pipeline, trap and debug state
(01_bundles.md R13; 06_lut_engine.md R169 to R186; 08_core_memory.md R216 to R251; 09_core_traps.md R252 to R278; 14_package.md R367). -/

namespace Sys2Proof.Machine

open Sys2Proof

/-- Bytes that hold something other than zero, by rising address: a scratchpad, or memory (Host.Cell). -/
abbrev Bytes := List (Nat × BitVec 8)

/-- Trap causes (09_core_traps.md Table 9-1). -/
inductive Cause where
  | bundleFormat | slotIllegal | fetchFault | dataFault | align | diverge | priv | staleTable | codebook | saplingExhausted
  | staleHandle | ringMisuse | shape | launch | access | break | step | watch | preempt | engine | copyError | syscall | legacy
  deriving DecidableEq, Repr

/-- Codes of Table 9-1. -/
def Cause.code : Cause → Nat
  | .bundleFormat => 0x01 | .slotIllegal => 0x02 | .fetchFault => 0x03 | .dataFault => 0x04 | .align => 0x05 | .diverge => 0x06
  | .priv => 0x07 | .staleTable => 0x08 | .codebook => 0x09 | .saplingExhausted => 0x0A | .staleHandle => 0x0B | .ringMisuse => 0x0C
  | .shape => 0x0D | .launch => 0x0E | .access => 0x0F | .break => 0x10 | .step => 0x11 | .watch => 0x12 | .preempt => 0x13
  | .engine => 0x14 | .copyError => 0x15 | .syscall => 0x16 | .legacy => 0x17

/-- A trap frame (Table 9-2). -/
structure Frame where
  cause : Nat
  slotMask : Nat
  kindf : Nat
  status : Nat
  arg : Nat
  baddr : W64
  scyc : Nat
  faddr : Nat
  caddr : W64
  cscyc : Nat
  snapGen : Nat
  tileGen : Nat
  srbCnt : Nat
  info : Nat
  deriving DecidableEq, Repr

def Frame.empty : Frame := ⟨0, 0, 0, 0, 0, 0, 0, 0, 0, 0, 0, 0, 0, 0⟩

/-- Where a pending write lands (Table 9-4, DFILE and INDEX). A shape write carries the vector length it grants, if any. -/
inductive Dst where
  | s (n : Fin 32)
  | a (n : Fin 16)
  | v (n : Fin 32)
  | p (n : Fin 8)
  | b (n : Fin 8)
  | lc (n : Fin 4)
  | sk (n : Fin 3)
  | sh (n : Fin 4)
  | f (n : Fin 4)
  | tile (x : Fin 4) (row : Fin 16)
  | cb (sel : Fin 5)
  | sl (e : Bool)
  | csr (n : Nat)
  | vtbld (ring : Fin 16)
  deriving DecidableEq, Repr

/-- DFILE codes of Table 9-4. -/
def Dst.file : Dst → Nat
  | .s _ => 0 | .a _ => 1 | .v _ => 2 | .p _ => 3 | .b _ => 4 | .lc _ => 5 | .sk _ => 6 | .sh _ => 7 | .f _ => 8 | .tile _ _ => 9
  | .cb _ => 10 | .sl _ => 11 | .csr _ => 12 | .vtbld _ => 13

/-- INDEX of Table 9-4; sk1 to sk3 are numbered 1 to 3. -/
def Dst.index : Dst → Nat
  | .s n => n.val | .a n => n.val | .v n => n.val | .p n => n.val | .b n => n.val | .lc n => n.val | .sk n => n.val + 1 | .sh n => n.val
  | .f n => n.val | .tile x r => 16 * x.val + r.val | .cb k => k.val | .sl e => if e then 1 else 0 | .csr n => n | .vtbld r => r.val

/-- What a pending VTBLD write carries besides its activations (Table 9-4, BYTEEN for DFILE 13). -/
structure VtbldArgs where
  cfg : Nat
  vals : Nat
  cbGen : Nat
  scale : Nat
  desc : Nat
  entry : Nat
  ringGen : Nat
  deriving DecidableEq, Repr

/-- A fixed-latency write on its way (01_bundles.md R32; 09_core_traps.md R260): the cycle it lands at, its slot, issue cycle and bundle,
its destination and value, the byte lanes it writes, the bypass latch it updates, and the events it posts when it lands. `handler` marks
a write of a handler bundle. -/
structure Pend where
  land : Nat
  slot : Nat
  iss : Nat
  baddr : W64
  dst : Dst
  val : Nat
  en : Nat
  latch : Option (Fin 8)
  evs : List EvSum
  handler : Bool
  vt : Option VtbldArgs
  deriving DecidableEq, Repr

/-- One statistics record (Table 9-9). -/
structure StatRec where
  code : Nat
  source : Nat
  kind : Nat
  count : Nat
  baddr : W64
  scyc : Nat
  aux : Nat
  object : Nat
  deriving DecidableEq, Repr

/-- A ring (08_core_memory.md Table 8-1). `marks` are entries reserved by HRES and not yet pushed, `done` entries finished and not yet
pushed, `openT` the open VTBLD tile: entry, COLS and CBGEN (05_vector.md R156). -/
structure Ring where
  init : Bool
  gen : BitVec 12
  desc : W64
  h : BitVec 32
  c : BitVec 32
  t : BitVec 32
  a : BitVec 32
  openT : Option (BitVec 32 × Nat × Nat)
  marks : List (BitVec 32)
  done : List (BitVec 32)
  deriving DecidableEq, Repr

def Ring.empty : Ring := ⟨false, 0, 0, 0, 0, 0, 0, none, [], []⟩

/-- Progress of a matrix command (07_matrix_ops.md R193): waiting, started, or held at a failed check with its cause, LUT status and the
table tile's CBGEN; `taken` says that the trap has been taken and the checks await a return (R181). -/
inductive MState where
  | waiting
  | started
  | held (c : Cause) (status tileGen : Nat) (taken : Bool)
  deriving DecidableEq, Repr

/-- A tile that the LUT engine takes (06_lut_engine.md R183): its ring and entry, the slot's address, the slot's bytes, lowest first, as
read at the start, and the bytes (one bit each) of which it has read the value that stands here, before a store changed them. -/
structure Tile where
  ring : Fin 16
  entry : BitVec 32
  addr : Nat
  val : Nat
  fixed : Nat
  deriving DecidableEq, Repr

/-- A table tile that MLUTK or MLUTGK left at the head of its ring, with the generation of that ring (07_matrix_ops.md R203). -/
structure Kept where
  tile : Tile
  gen : BitVec 12
  deriving DecidableEq, Repr

/-- One element of a lookup's result: its number, its place 512 × i + n in a context save area, its accumulator index, its code, and whether it
counts for NAN, OVF and BADCODE (07_matrix_ops.md R200; 09_core_traps.md Table 9-5). -/
structure LutElem where
  num : Nat
  place : Nat
  idx : Nat
  val : Nat
  nan : Bool
  ovf : Bool
  bad : Bool
  deriving DecidableEq, Repr

/-- A command of the matrix queue (07_matrix_ops.md R192 to R196; 09_core_traps.md R265): `mask` is the mask state taken at the start
(R211), `done` the elements completed when a save stopped it, in the order of R200 (09_core_traps.md R262). -/
structure MatCmd where
  id : Nat
  g : Guard
  op : MatrixOp
  baddr : W64
  iss : Nat
  bseq : Nat
  handler : Bool
  cfg : Nat
  cbGen : Nat
  gm : Nat
  gn : Nat
  gk : Nat
  gens : List (Fin 16 × BitVec 12)
  st : MState
  vd : Nat
  win : Nat
  tiles : List Tile
  mask : Nat
  done : List LutElem
  deriving DecidableEq, Repr

/-- Progress of a copy command: waiting in the queue, running, or ended with a status that its record has still to report. -/
inductive YState where
  | waiting
  | running
  | ended (status : Nat)
  deriving DecidableEq, Repr

/-- A command of a copy queue (08_core_memory.md R230, R231; 09_core_traps.md R265). `mats` are the matrix commands a YACCP waits for, `snap`
the accumulator elements a YACC reads (R242; 07_matrix_ops.md R214), `rng` the random state at the start of the chunk under way (R236). -/
structure CopyCmd where
  id : Nat
  g : Guard
  op : CopyOp
  blk : Nat
  baddr : W64
  iss : Nat
  bseq : Nat
  handler : Bool
  ring : Option (Fin 16 × BitVec 12 × BitVec 32)
  st : YState
  chunk : Nat
  lock : Option (Nat × Nat)
  win : Nat
  cancel : Bool
  halted : Bool
  scale : Nat
  evs : List EvSum
  page : Option Nat
  mats : List Nat
  snap : List (Nat × BitVec 32)
  rng : Option W64
  deriving DecidableEq, Repr

/-- A parked write of a copy engine (08_core_memory.md R239; 14_package.md Table 14-12): the virtual address of a line, byte enables, data,
and the command it belongs to. -/
structure Parked where
  line : W64
  en : BitVec 64
  data : BitVec 512
  cmd : Nat
  deriving DecidableEq, Repr

/-- A pending COPY_ERROR cause (Table 9-12). -/
structure CopyErr where
  status : Nat
  caddr : W64
  cscyc : Nat
  cplOff : Nat
  deriving DecidableEq, Repr

/-- A QFENCE that still joins engines (08_core_memory.md R226): the engines named, the bundle with its issue cycle and mode, and the commands
it waits for. -/
structure QFence where
  mask : Nat
  bseq : Nat
  iss : Nat
  handler : Bool
  cmds : List Nat
  deriving DecidableEq, Repr

/-- How the bytes of a load become a register value: sign- or zero-extended, or byte lanes of a vector register. -/
inductive LdFmt where
  | zext
  | sext (bits : Nat)
  | lanes
  deriving DecidableEq, Repr

/-- Arguments of a request to a barrier word at its home, or of an arrival at a set of the slice (10_cluster.md R290, R297). -/
inductive BarReq where
  | init (count : Nat)
  | arrive
  | remAddr
  | remSet (set : Nat)
  deriving DecidableEq, Repr

/-- What an entry of a core's memory pipeline asks for (04_control_scalar.md R122 to R132; 11_ordering.md R306 to R313). A load gives, for
each byte of its destination, the byte's place and physical address. -/
inductive MemKind where
  | load (dst : Dst) (fmt : LdFmt) (cells : List (Nat × Nat)) (noAlloc cw : Bool) (acq : Option Scope)
  | store (cells : Bytes) (cw : Bool) (noAlloc : Bool)
  | addStore (items : List (Nat × Nat × Nat))
  | release (cells : Bytes) (sc : Scope) (cmds : List Nat)
  | arrive (req : BarReq) (pa : Nat) (sc : Scope) (cmds : List Nat)
  | larm (dst : Dst) (idx : Nat) (cmds : List Nat)
  | lpatch (idx : Nat) (k : Fin 8) (val : W64)
  | mark
  | flush (sc : Scope) (inv : Bool)
  | flushLine (pa : Nat) (inv : Bool)
  | prefetch (pa : Nat)
  deriving DecidableEq, Repr

/-- An entry of the memory pipeline, with the bundle that issued it. -/
structure MemOp where
  bseq : Nat
  slot : Nat
  baddr : W64
  iss : Nat
  handler : Bool
  kind : MemKind
  deriving DecidableEq, Repr

/-- An interlocked result that has arrived and waits for an earlier fixed write to its register (01_bundles.md R34), with the issue cycle,
the mode and the slot of its instruction. -/
structure Held where
  dst : Dst
  val : Nat
  en : Nat
  iss : Nat
  handler : Bool
  slot : Nat
  deriving DecidableEq, Repr

/-- A pending BTOK write (04_control_scalar.md R102): destination, base value, engine, window it closes, and for V0 and V1 the bundle
before which that slot's interlocked results must have landed. -/
structure Btok where
  dst : Fin 8
  base : W64
  eng : Eng
  win : Nat
  bseq : Nat
  iss : Nat
  handler : Bool
  deriving DecidableEq, Repr

/-- A line of an L1 data cache (08_core_memory.md R228; 11_ordering.md R312): line address, data, valid sectors, dirty bytes, scope tag,
and whether its page is CW, and poison (10_cluster.md R299). -/
structure L1Line where
  addr : Nat
  data : BitVec 512
  valid : BitVec 2
  dirty : BitVec 64
  tag : Scope
  cw : Bool
  poison : Bool
  deriving DecidableEq, Repr

/-- A TLB entry (12_die.md R327 to R331): address space, virtual page and its size in bits, physical page, and the leaf's attributes. -/
structure TlbEntry where
  asn : Nat
  vpn : Nat
  bits : Nat
  ppn : Nat
  r : Bool
  w : Bool
  x : Bool
  u : Bool
  cw : Bool
  cz : Bool
  d : Bool
  deriving DecidableEq, Repr

/-- A bundle in the decoded-operation cache (14_package.md R396): its tags, which are address space, encoding generation and virtual address,
and the words it was fetched with. -/
structure CodeEntry where
  asn : Nat
  gen : Gen
  va : Nat
  words : List Nat
  deriving DecidableEq, Repr

/-- A 64-byte line of the instruction byte cache (01_bundles.md, Fetch; 14_package.md R396): address space, virtual address, bytes. -/
structure CodeLine where
  asn : Nat
  va : Nat
  data : BitVec 512
  deriving DecidableEq, Repr

/-- What a core holds of its code: decoded bundles, and lines of bytes. -/
structure CodeCache where
  ops : List CodeEntry
  lines : List CodeLine
  deriving DecidableEq, Repr

def CodeCache.empty : CodeCache := ⟨[], []⟩

/-- What ends a wait that another agent's write, push, pop or arrival can end (08_core_memory.md R223; 04_control_scalar.md R126; 10_cluster.md
R290; 13_scheduling.md R350): so many pushed entries of a ring, room for so many, so many behind its commit point; a full/empty word of
this core full, empty, or full with at least a value; a barrier word, by physical address, that lets pass; a word that is zero. -/
inductive Until where
  | pushed (ring : Fin 16) (n : Nat)
  | room (ring : Fin 16) (n : Nat)
  | committed (ring : Fin 16) (n : Nat)
  | full (word : Nat)
  | empty (word : Nat)
  | atLeast (word val : Nat)
  | phase (pa : Nat)
  | zero (pa : Nat)
  deriving DecidableEq, Repr

/-- What a waiting bundle waits for (Table 9-10), for how many clock cycles it has waited, its slot, what ends the wait, the word an LWAIT
waits for, and the reference time since which it waits for that word (13_scheduling.md R350, R356). -/
structure WaitInfo where
  kind : Nat
  object : Nat
  agent : Nat
  cycles : Nat := 0
  lwait : Option W64 := none
  slot : Nat := 0
  ends : Option Until := none
  since : Nat := 0
  deriving DecidableEq, Repr

/-- A cause that is due at the boundary the core stands at and has yet to be taken, since loads or stores come first (09_core_traps.md R252,
R258, R260, R272): ARG, whether it goes to Taproot, the bundle it names with its cycle, and whether it is an after-cause. -/
structure Owed where
  cause : Cause
  arg : Nat
  toTaproot : Bool
  caddr : W64
  cscyc : Nat
  after : Bool
  deriving DecidableEq, Repr

/-- How a walk that found no translation ends for the misses it served: a reason of 12_die.md R329; refused by the access tables at a physical
address (R339), or at a table of another package; no route or no link to that package (15_fabric.md R408). -/
inductive WalkFault where
  | reason (status : Nat)
  | refused (pa : Nat)
  | fabRefused
  | fabNoRoute
  | fabUnlinked
  deriving DecidableEq, Repr

/-- The end of a walk that served this core's miss, kept for the access that waits (12_die.md R331): address space and page, whether it
concerns writes alone, and the fault. -/
structure WalkAnswer where
  asn : Nat
  vpn : Nat
  write : Bool
  fault : WalkFault
  deriving DecidableEq, Repr

/-- What a core does: no thread, a thread that issues, or a thread whose HALT bundle has issued (04_control_scalar.md R103). A Taproot
core is idle in reset and runs otherwise (14_package.md R382). -/
inductive Run where
  | idle | running | halted
  deriving DecidableEq, Repr

/-- The registers of Table 1-2 with the handler bank, scale latches, random states and codebook context. -/
structure Regs where
  s : Vector W64 32
  a : Vector W64 16
  v : Vector Vec 32
  p : Vector Pred 8
  b : Vector W64 8
  lc : Vector W32 4
  sk : Vector Bool 3
  sh : Vector W64 4
  f : Vector (BitVec 17) 4
  x : Vector (Vector Vec 16) 4
  bp : Vector Vec 8
  vl : Nat
  hbS : Vector W64 4
  hbA : Vector W64 2
  sl : Vector (BitVec 8) 2
  rng : Vector W64 4
  cbCfg : BitVec 16
  cbVal : Vector W32 4
  cbGen : BitVec 16
  deriving DecidableEq, Repr

/-- Values at thread start (01_bundles.md Table 1-2; 03_numbers.md R78, R82; 06_lut_engine.md R169 to R171; 09_core_traps.md R257). -/
def Regs.start : Regs where
  s := Vector.replicate 32 0
  a := Vector.replicate 16 0
  v := Vector.replicate 32 0
  p := (Vector.replicate 8 0).set 0 (BitVec.allOnes 256)
  b := Vector.replicate 8 0
  lc := Vector.replicate 4 0
  sk := Vector.replicate 3 true
  sh := Vector.replicate 4 0x100
  f := Vector.replicate 4 0x12307
  x := Vector.replicate 4 (Vector.replicate 16 0)
  bp := Vector.replicate 8 0
  vl := 256
  hbS := Vector.replicate 4 0
  hbA := Vector.replicate 2 0
  sl := Vector.replicate 2 0
  rng := Vector.replicate 4 0
  cbCfg := 0x0AC0
  cbVal := (Vector.replicate 4 0).set 0 0x000100FF
  cbGen := 0

/-- Control and status registers of an engine core (Table 9-11), breakpoints and watchpoints among them. -/
structure Csrs where
  tctl : Bool
  tvec : W64
  tframe : BitVec 19
  tdeleg : W32
  tepc : W64
  statEn : Bool
  waitMin : W32
  statBase : W64
  statSize : W32
  statHead : W32
  statTail : W32
  statLost : W32
  bpVal : Vector W64 4
  bpCtl : Vector W32 4
  wpAddr : Vector W64 4
  wpCtl : Vector W32 4
  deriving DecidableEq, Repr

/-- Reset column of Table 9-11. -/
def Csrs.start : Csrs where
  tctl := false
  tvec := 0
  tframe := 0
  tdeleg := 0x00888000
  tepc := 0
  statEn := false
  waitMin := 1
  statBase := 0
  statSize := 0
  statHead := 0
  statTail := 0
  statLost := 0
  bpVal := Vector.replicate 4 0
  bpCtl := Vector.replicate 4 0
  wpAddr := Vector.replicate 4 0
  wpCtl := Vector.replicate 4 0

/-- What a trap or interrupt of a Taproot core sets aside for its SRET (01_bundles.md R44; 14_package.md R367; DEDUCED, log 75): the writes on
their way, each with the cycles it has still to go, what waits behind them, and whether the resume bundle's STALL is counted. -/
structure TapSaved where
  writes : List Pend
  held : List Held
  counted : Bool
  since : Nat
  deriving DecidableEq, Repr

/-- CSRs of a Taproot core (14_package.md Table 14-4): SM, PSM, IE and PIE of TRSTAT, then the others. -/
structure TapCsrs where
  sm : Bool
  psm : Bool
  ie : Bool
  pie : Bool
  vec : W64
  epc : W64
  cause : W64
  bad : W64
  root : W64
  irqEn : W64
  tcmp : W64
  saved : List TapSaved
  deriving DecidableEq, Repr

/-- Reset column of Table 14-4. -/
def TapCsrs.start : TapCsrs := ⟨true, false, false, false, 0, 0, 0, 0, 0, 0, BitVec.allOnes 64, []⟩

/-- The engines' queues and what their commands leave behind. `draws` counts the free values that the core's agents have taken (DESIGN CHOICE,
log 1). -/
structure Engines where
  mq : List MatCmd
  acc : List (Nat × BitVec 32)
  mask : Nat
  retired : W64
  yq : Vector (List CopyCmd) 2
  spill : Vector (List Parked) 2
  errs : Vector (List CopyErr) 2
  lostErr : Vector Bool 2
  fences : List QFence
  kept : Option Kept
  draws : Nat
  win : Vector Nat 5
  toks : List (Eng × Nat × Nat)
  btoks : List Btok
  nextId : Nat
  deriving DecidableEq, Repr

def Engines.start : Engines where
  mq := []
  acc := []
  mask := 0
  retired := 0
  yq := Vector.replicate 2 []
  spill := Vector.replicate 2 []
  errs := Vector.replicate 2 []
  lostErr := Vector.replicate 2 false
  fences := []
  kept := none
  draws := 0
  win := Vector.replicate 5 0
  toks := []
  btoks := []
  nextId := 0

/-- Debug-port state of a core (14_package.md Table 14-17; 09_core_traps.md R268 to R274). `moved` are the engines that have advanced in a
single step (R270). -/
structure Debug where
  frozen : Bool
  reason : Nat
  err : Bool
  stepping : Bool
  stepOver : Option Nat
  moved : List Eng
  cmd : W64
  data : W64
  recd : Nat
  deriving DecidableEq, Repr

def Debug.start : Debug := ⟨false, 0, false, false, none, [], 0, 0, 0⟩

/-- The thread a core runs (13_scheduling.md R344, R351; 02_encodings.md R60): launch record index and die, encoding generation, address
space, level-1 table, barrier base and context save area. -/
structure Thread where
  idx : Nat
  gen : Gen
  asn : Nat
  root : Nat
  barBase : W64
  csa : Nat
  deriving DecidableEq, Repr

def Thread.none : Thread := ⟨0, .g3, 0, 0, 0, 0⟩

/-- One core: an engine core or a Taproot core. `stay` are results that a return has landed while an earlier fixed write to their register was
still pending: that write leaves what they wrote as it is (01_bundles.md R34; 09_core_traps.md R261; DEDUCED, log 65). -/
structure Core where
  run : Run
  pc : W64
  cyc : Nat
  hcyc : Nat
  delay : Nat
  stallTaken : Bool
  resumeTaken : Bool
  handler : Bool
  skipBp : Bool
  stepOnce : Bool
  preempt : Bool
  owed : Option Owed
  frame : Nat
  haltAddr : W64
  bseq : Nat
  waitc : Option WaitInfo
  regs : Regs
  csr : Csrs
  tap : TapCsrs
  rings : Vector Ring 16
  spad : Bytes
  full : List Nat
  pend : List Pend
  srb : List Pend
  held : List Held
  stay : List Held
  memq : List MemOp
  l1 : List L1Line
  tlb : List TlbEntry
  tlbOld : List TlbEntry
  answers : List WalkAnswer
  code : CodeCache
  eng : Engines
  stats : List StatRec
  statStuck : Bool
  thr : Thread
  dbg : Debug
  deriving DecidableEq, Repr

/-- A core as reset leaves it, and as a thread finds it apart from its launch values (01_bundles.md R13; 13_scheduling.md R351). -/
def Core.start : Core where
  run := .idle
  pc := 0
  cyc := 0
  hcyc := 0
  delay := 0
  stallTaken := false
  resumeTaken := true
  handler := false
  skipBp := false
  stepOnce := false
  preempt := false
  owed := none
  frame := 0
  haltAddr := 0
  bseq := 0
  waitc := none
  regs := .start
  csr := .start
  tap := .start
  rings := Vector.replicate 16 .empty
  spad := []
  full := []
  pend := []
  srb := []
  held := []
  stay := []
  memq := []
  l1 := []
  tlb := []
  tlbOld := []
  answers := []
  code := .empty
  eng := .start
  stats := []
  statStuck := false
  thr := .none
  dbg := .start

end Sys2Proof.Machine
end

