-- ==== Sys2Proof/Machine/State.lean ====
section
/-! DEFINITION. The state of the whole device (12_die.md Table 12-7; 13_scheduling.md R345, R362; 14_package.md; 15_fabric.md R418), its
value after reset, and the reasons a step can stop. The list of every field with its rule and reset value is INVENTORY.md. -/

namespace Sys2Proof.Machine

open Sys2Proof

/-- Why the machine stops. -/
inductive Fault where
  /-- Raised by every step of a device whose board has removed power after THERMTRIP (14_package.md R402). Safe: no step of such a
  device has an effect that the spec gives. -/
  | powerOff
  deriving DecidableEq, Repr

/-- Why a step is refused. -/
inductive Refusal where
  /-- Raised only by an arm of `exec` whose instruction has no meaning yet. Safe: nothing is claimed of it. -/
  | notModelled (mnemonic : String)
  deriving DecidableEq, Repr

/-- A line of an L2 slice (10_cluster.md R279; 11_ordering.md R312): address, data, dirty bytes, the cores that made it dirty, the cores
for whose next read it counts as absent, and poison. -/
structure L2Line where
  addr : Nat
  data : BitVec 512
  dirty : BitVec 64
  cores : List Nat
  stale : List Nat
  poison : Bool
  deriving DecidableEq, Repr

/-- A member of a membership set (10_cluster.md R294): die and record index, the physical address of its bound word, arrived. -/
structure Member where
  die : Fin 4
  idx : Nat
  pa : Nat
  arrived : Bool
  deriving DecidableEq, Repr

/-- An L2 slice with its failed ways and its 32 membership sets. -/
structure L2Slice where
  lines : List L2Line
  failed : List (Fin 16)
  sets : Vector (List Member) 32
  deriving DecidableEq, Repr

def L2Slice.empty : L2Slice := ⟨[], [], Vector.replicate 32 []⟩

/-- A ring of records in memory (12_die.md R335). -/
structure MemQueue where
  base : W64
  size : W64
  head : W64
  tail : W64
  deriving DecidableEq, Repr

def MemQueue.empty : MemQueue := ⟨0, 0, 0, 0⟩

/-- An outstanding pager request (12_die.md R334): tag, page, address space; `posted` when its record has been written. -/
structure PagerReq where
  tag : Nat
  vpn : Nat
  asn : Nat
  rec32 : Nat
  posted : Bool
  deriving DecidableEq, Repr

/-- An event record held by the die (13_scheduling.md R362, Table 13-6). -/
structure EventRec where
  kind : Nat
  cause : Nat
  idx : Nat
  core : Nat
  addr : Nat
  deriving DecidableEq, Repr

/-- States of a launch record (13_scheduling.md Table 13-2). -/
inductive NrState where
  | idle | armed | running | parked | ready | trapped
  deriving DecidableEq, Repr

/-- What the die holds for one launch record (13_scheduling.md R345 to R360): state, arm time and order, window boundaries since the arm,
captured arguments, placements, last start, last core, windows in a row in which admission refused it and whether this one is another,
whether its dependence was met when last tested, the word its LWAIT names while PARKED, the 256 bytes of the record as read when it was
armed and again when its thread started, and for a saved thread what its context save area has no place for. -/
structure NurRec where
  idx : Nat
  st : NrState
  armTime : W64
  windows : Nat
  args : Vector W64 8
  runs : Nat
  lastStart : W64
  lastCore : Option (Fin 68)
  refusedWin : Nat
  refusedNow : Bool
  depMet : Bool
  lwaitVa : Option W64
  image : Nat
  saved : Option Core
  deriving DecidableEq, Repr

/-- A TLB invalidation command as issued (12_die.md R332): the value written and TLBEND at the time; `performed` once done. -/
structure TlbCmd where
  cmd : W64
  stop : W64
  performed : Bool
  deriving DecidableEq, Repr

/-- A write that has entered the bridge stop's queue towards its home on another die (11_ordering.md R303; 12_die.md R324): line, byte
enables, data, poison, and the core of this die that wrote the bytes, where it was one core. -/
structure Bridged where
  line : Nat
  en : BitVec 64
  data : BitVec 512
  poison : Bool
  core : Option (Fin 68)
  deriving DecidableEq, Repr

/-- A TLB miss that waits for its walk (12_die.md R331): core, address space, virtual page of 4 KB, whether for a write. -/
structure Miss where
  core : Fin 68
  asn : Nat
  vpn : Nat
  write : Bool
  deriving DecidableEq, Repr

/-- One Krykel die. Cores 0 to 63 are engine cores, 64 to 67 Taproot cores (12_die.md R337). -/
structure Die where
  cores : Vector Core 68
  l2 : Vector L2Slice 8
  pinned : List Nat
  spread : Bool
  hwpin : Vector W64 8
  pinOvf : W32
  tlbEnd : W64
  tlbSeq : Nat
  tlbDone : Nat
  tlbCmds : List TlbCmd
  pgq : MemQueue
  pfq : MemQueue
  sevq : MemQueue
  mcq : MemQueue
  pager : List PagerReq
  nextTag : Nat
  events : List EventRec
  atDom : Vector W64 64
  atDef : W64
  atLock : Bool
  atLog : W64
  atCnt : W32
  atReg : Vector (W64 × W64) 32
  spPerm : Vector W64 64
  ebudget : W64
  eused : W64
  etotal : W64
  ecore : Vector W64 64
  ethrot : Vector W64 64
  hardHold : Bool
  softLow : Bool
  thermHold : Bool
  thermLow : Bool
  nurBase : W64
  schedCfg : W64
  recs : List NurRec
  admSum : Nat
  mcLost : W32
  trSoft : W64
  ceCnt : Vector W64 16
  l2ce : Vector W64 8
  scrub : W64
  trStart : Vector W64 4
  shadow : List (Nat × W64)
  bridge : List Bridged
  misses : List Miss
  lastWalk : Nat
  passDue : Bool
  deriving DecidableEq, Repr

/-- A contribution held in the switch, or a line's open entry at its home (15_fabric.md R409 to R413): window, fabric address of the line,
count, bytes present, data, the fabric writes that it carries, the package it comes from, the ROUTE word in force when it entered, and every
package whose contributions are merged in it. -/
structure Contribution where
  window : Fin 16
  line : Nat
  count : Nat
  en : BitVec 64
  data : BitVec 512
  srcs : List Nat
  src : Nat
  route : Nat
  pkgs : List Nat
  deriving DecidableEq, Repr

/-- A fabric write whose acknowledgement has not come (15_fabric.md R407): its number, die and core of the writer, the copy command it
belongs to if any, address, the number of its bundle, and whether it is the store or arrival of a release. -/
structure FabWrite where
  id : Nat
  die : Fin 4
  core : Fin 68
  cmd : Option Nat
  addr : Nat
  bseq : Nat
  rel : Bool
  deriving DecidableEq, Repr

/-- What the loader answered last (14_package.md Table 14-15, R400): status, the index concerned, the APF instruction named, and for each APF
section its index and the words of the bundles that Denoijan bound; and the sections that it maps. -/
structure LoadResult where
  status : Nat
  index : Nat
  inst : Option Nat
  bound : List (Nat × List Nat)
  mapped : List Nat
  deriving DecidableEq, Repr

/-- How far boot has come (14_package.md R381). -/
inductive Boot where
  | inReset | rom | stage1 | done
  | failed (status : Nat)
  deriving DecidableEq, Repr

/-- The Hub (14_package.md Tables 14-7 to 14-9, 14-17; 15_fabric.md Table 15-8), with the address and the data of the debug port's data register
(14_package.md R387). A bare die has no Hub: what the customer's package supplies of this is held here too (00_scope.md R2; DESIGN CHOICE,
log 76). -/
structure Hub where
  ptime : W64
  trigAt : Option W64
  gseq : W64
  mbPend : W64
  mbRoute : W64
  msiPend : W64
  winBase : W64
  winSize : W64
  msiSent : List Nat
  mr : Vector (BitVec 256) 8
  revoke : W64
  rollback : Vector W64 4
  unlocked : Bool
  boot : Boot
  bootErr : W64
  fabCfg : W64
  fabPort : Vector W64 8
  route : Vector W64 15
  fabDrop : W64
  fabRed : Vector (W64 × W64) 16
  contribs : List Contribution
  openEntries : List Contribution
  fabWrites : List FabWrite
  nextFab : Nat
  linksDown : List Link
  lastLoad : Option LoadResult
  report : Option (List Byte)
  portAddr : W64
  portData : W64
  deriving DecidableEq, Repr

/-- What the outside brings with a step: reference-clock ticks of 10 ns (PTIME); energy drawn by a core of a die, in µJ; dies whose bridge stop
sends its oldest write on (11_ordering.md R303); lines that their Heartwood slice writes back to memory (12_die.md R324); lines that memory
delivered corrected (14_package.md R376); lines of code that a core fetches ahead (01_bundles.md, Fetch); and whether the answers that a bundle
waits for (page walks, the slice, the Nursery) come after this step (12_die.md R331; 10_cluster.md R295; 13_scheduling.md R348). -/
structure EnvTick where
  ptime : Nat := 0
  energy : List (Fin 4 × Nat × Nat) := []
  bridge : List (Fin 4) := []
  heart : List Nat := []
  corrected : List Nat := []
  ahead : List (Fin 4 × Fin 68 × BitVec 64) := []
  late : Bool := false
  deriving DecidableEq, Repr

/-- The device. `mem` and `poison` are the contents of the homes, Heartwood over memory, `dram` and `dramPoison` what memory itself holds
(00_scope.md R9; 12_die.md R324). `agenda` says which agent moves next, `env` what time and energy the outside brings, `late` that the
answers of this step are late, `cur` whose sequencer issues when the agenda is empty, `fresh` counts free values taken (DESIGN CHOICE,
log 1). -/
structure State where
  dies : Vector Die 4
  hub : Hub
  mem : Bytes
  poison : List Nat
  dram : Bytes
  dramPoison : List Nat
  fabMem : Bytes
  late : Bool
  power : Bool
  agenda : List Instr
  env : List EnvTick
  cur : Fin 4 × Fin 68
  fresh : Nat
  cfg : Cfg
  deriving DecidableEq, Repr

/-- A die after reset (reset columns of Tables 12-3, 12-7, 12-9, 12-11, 13-4, 13-5, 14-5). -/
def Die.reset (cfg : Cfg) : Die where
  cores := Vector.replicate 68 .start
  l2 := Vector.replicate 8 .empty
  pinned := []
  spread := cfg.spread
  hwpin := Vector.replicate 8 0
  pinOvf := 0
  tlbEnd := 0
  tlbSeq := 0
  tlbDone := 0
  tlbCmds := []
  pgq := .empty
  pfq := .empty
  sevq := .empty
  mcq := .empty
  pager := []
  nextTag := 0
  events := []
  atDom := Vector.replicate 64 0
  atDef := 0x10001
  atLock := false
  atLog := 0
  atCnt := 0
  atReg := Vector.replicate 32 (0, 0)
  spPerm := Vector.replicate 64 0x00010001
  ebudget := if cfg.form = .D then 0x800000E0000249F0 else 0x800000E000018E70
  eused := 0
  etotal := 0
  ecore := Vector.replicate 64 0
  ethrot := Vector.replicate 64 0
  hardHold := false
  softLow := false
  thermHold := false
  thermLow := false
  nurBase := 0
  schedCfg := 0x0000F00407D00000
  recs := []
  admSum := 0
  mcLost := 0
  trSoft := 0
  ceCnt := Vector.replicate 16 0
  l2ce := Vector.replicate 8 0
  scrub := 86400
  trStart := Vector.replicate 4 0
  shadow := []
  bridge := []
  misses := []
  lastWalk := 0
  passDue := false

/-- The Hub after reset (reset columns of Tables 14-7, 15-3, 15-4). -/
def Hub.reset : Hub where
  ptime := 0
  trigAt := none
  gseq := 0
  mbPend := 0
  mbRoute := 0
  msiPend := 0
  winBase := 0
  winSize := 0
  msiSent := []
  mr := Vector.replicate 8 0
  revoke := 0
  rollback := Vector.replicate 4 0
  unlocked := false
  boot := .inReset
  bootErr := 0
  fabCfg := 0x0F
  fabPort := Vector.replicate 8 0xF001
  route := Vector.replicate 15 0
  fabDrop := 0
  fabRed := Vector.replicate 16 (0, 0)
  contribs := []
  openEntries := []
  fabWrites := []
  nextFab := 0
  linksDown := []
  lastLoad := none
  report := none
  portAddr := 0
  portData := 0

/-- The device in reset: no memory listed, every core idle, boot not begun. -/
def State.reset : State where
  dies := Vector.replicate 4 (Die.reset .full)
  hub := .reset
  mem := []
  poison := []
  dram := []
  dramPoison := []
  fabMem := []
  late := false
  power := true
  agenda := []
  env := []
  cur := (0, 0)
  fresh := 0
  cfg := .full

end Sys2Proof.Machine
end

