-- ==== Sys2Proof/Machine/Mem.lean ====
section
/-! DEFINITION. Byte memories in canonical form, and access to the parts of the state (00_scope.md R5; 08_core_memory.md R216).
An address that is not listed reads as zero (DESIGN CHOICE, log 2, DESIGN CHOICE, log 4); writing zero removes the entry. -/

namespace Sys2Proof.Machine

open Sys2Proof

/-- The value at a key of a sparse list; zero where the key is not listed. -/
def sget {w : Nat} : List (Nat × BitVec w) → Nat → BitVec w
  | [], _ => 0
  | (k, v) :: l, a => if a < k then 0 else if a = k then v else sget l a

/-- Writes a key of a sparse list, keeping its keys rising and its values nonzero. -/
def sset {w : Nat} : List (Nat × BitVec w) → Nat → BitVec w → List (Nat × BitVec w)
  | [], a, x => if x = 0 then [] else [(a, x)]
  | (k, v) :: l, a, x =>
    if a < k then (if x = 0 then (k, v) :: l else (a, x) :: (k, v) :: l)
    else if a = k then (if x = 0 then l else (a, x) :: l)
    else (k, v) :: sset l a x

/-- The canonical form: keys strictly rising from above `lo`, no value zero. -/
def swfFrom {w : Nat} (lo : Nat) : List (Nat × BitVec w) → Bool
  | [] => true
  | (k, v) :: l => decide (lo ≤ k) && v != 0 && swfFrom (k + 1) l

/-- The canonical form of a sparse list. -/
def swf {w : Nat} (m : List (Nat × BitVec w)) : Bool := swfFrom 0 m

/-- The canonical form of a memory: addresses strictly rising, no entry zero. -/
def Memory.wf (m : Bytes) : Bool := swf m

/-- `n` bytes from an address, little-endian (R5). -/
def readLE (m : Bytes) (a : Nat) : Nat → Nat
  | 0 => 0
  | n + 1 => (sget m a).toNat + 256 * readLE m (a + 1) n

/-- Writes a list of bytes from an address upwards. -/
def writeBytes (m : Bytes) (a : Nat) : List (BitVec 8) → Bytes
  | [] => m
  | b :: l => writeBytes (sset m a b) (a + 1) l

/-- The low `n` bytes of a value, lowest first. -/
def bytesOf (v : Nat) : Nat → List (BitVec 8)
  | 0 => []
  | n + 1 => BitVec.ofNat 8 v :: bytesOf (v / 256) n

def writeLE (m : Bytes) (a n v : Nat) : Bytes := writeBytes m a (bytesOf v n)

/-- Little-endian value of a list of bytes. -/
def leOf : List (BitVec 8) → Nat
  | [] => 0
  | b :: l => b.toNat + 256 * leOf l

/-- Writes a list of cells in order. -/
def writeCells (m : Bytes) : List (Nat × BitVec 8) → Bytes
  | [] => m
  | (a, b) :: l => writeCells (sset m a b) l

/-- `n` bytes from an address as a list. -/
def bytesAt (m : Bytes) (a : Nat) : Nat → List (BitVec 8)
  | 0 => []
  | n + 1 => sget m a :: bytesAt m (a + 1) n

/-- Inserts a number into a rising list without repeats. -/
def insertNat (a : Nat) : List Nat → List Nat
  | [] => [a]
  | k :: l => if a < k then a :: k :: l else if a = k then k :: l else k :: insertNat a l

def removeNat (a : Nat) (l : List Nat) : List Nat := l.filter fun k => k != a

/-- Element `n` of a list replaced. -/
def listSet {α : Type} : List α → Nat → α → List α
  | [], _, _ => []
  | _ :: l, 0, x => x :: l
  | y :: l, n + 1, x => y :: listSet l n x

/-- Element `n` of a list removed. -/
def listDrop {α : Type} : List α → Nat → List α
  | [], _ => []
  | _ :: l, 0 => l
  | y :: l, n + 1 => y :: listDrop l n

def State.die (s : State) (d : Fin 4) : Die := s.dies[d]

def State.setDie (s : State) (d : Fin 4) (x : Die) : State := { s with dies := s.dies.set d x }

def State.core (s : State) (d : Fin 4) (c : Fin 68) : Core := s.dies[d].cores[c]

def Die.setCore (x : Die) (c : Fin 68) (k : Core) : Die := { x with cores := x.cores.set c k }

def State.setCore (s : State) (d : Fin 4) (c : Fin 68) (k : Core) : State := s.setDie d ((s.die d).setCore c k)

def State.modCore (s : State) (d : Fin 4) (c : Fin 68) (f : Core → Core) : State := s.setCore d c (f (s.core d c))

def State.modDie (s : State) (d : Fin 4) (f : Die → Die) : State := s.setDie d (f (s.die d))

def State.modHub (s : State) (f : Hub → Hub) : State := { s with hub := f s.hub }

/-- A Taproot core has a local master number of 64 to 67 (12_die.md R337). -/
def isTaproot (c : Fin 68) : Bool := decide (64 ≤ c.val)

/-- The cluster of an engine core; a Taproot core has none and reads as 8. -/
def clusterOf (c : Fin 68) : Nat := c.val / 8

/-- An s register as an instruction names it: in handler mode s28 to s31 select the handler bank (09_core_traps.md R257). -/
def Core.readS (k : Core) (n : Fin 32) : W64 :=
  if k.handler && decide (28 ≤ n.val) then k.regs.hbS.getD (n.val - 28) 0 else k.regs.s[n]

/-- An a register as an instruction names it: in handler mode a14 and a15 select the handler bank (09_core_traps.md R257). -/
def Core.readA (k : Core) (n : Fin 16) : W64 :=
  if k.handler && decide (14 ≤ n.val) then k.regs.hbA.getD (n.val - 14) 0 else k.regs.a[n]

/-- A predicate; p0 always reads as all ones (01_bundles.md R13). -/
def Core.readP (k : Core) (n : Fin 8) : Nat := if n = 0 then 2 ^ 256 - 1 else k.regs.p[n].toNat

/-- The guard bits of a slot over all 256 lanes (01_bundles.md R27, Table 1-7). -/
def Core.guardBits (k : Core) (g : Guard) : Nat :=
  let p := k.readP g.p
  if g.inv then 2 ^ 256 - 1 - p else p

/-- `w`-bit copies of a value over a register (Table 1-3: bp.s and bp.a). -/
def broadcast (w x : Nat) : Nat := packElems w (List.replicate (2048 / w) (x % 2 ^ w))

/-- Lanes of `new` where `en` is set, lanes of `old` elsewhere; `unit` bits to a lane. -/
def mergeLanes (unit n : Nat) (old new en : Nat) : Nat :=
  packElems unit ((List.range n).map fun i => if en.testBit i then elemAt new unit i else elemAt old unit i)

/-- A vector source whose reader has elements of `w` bits: a register, or a bypass latch (01_bundles.md R15, Table 1-3). -/
def Core.readV (k : Core) (src : Fin 40) (w : Nat) : Nat :=
  if h : src.val < 32 then (k.regs.v[src.val]).toNat
  else
    let l := (k.regs.bp.getD (src.val - 32) 0).toNat
    if src.val = 34 ∨ src.val = 35 then broadcast w l else l

/-- The schedule cycle a bundle of this core counts in: the handler cycle in handler mode (09_core_traps.md R257). -/
def Core.now (k : Core) : Nat := if k.handler then k.hcyc else k.cyc

/-- The register an entry of the memory pipeline delivers a result to. -/
def MemKind.dst : MemKind → Option Dst
  | .load d _ _ _ _ _ => some d
  | .larm d _ _ => some d
  | .store _ _ _ => none
  | .addStore _ => none
  | .release _ _ _ => none
  | .arrive _ _ _ _ => none
  | .lpatch _ _ _ => none
  | .mark => none
  | .flush _ _ => none
  | .flushLine _ _ => none
  | .prefetch _ => none

/-- Whether an interlocked result to a register has yet to land (01_bundles.md R33, R34): a load, LARM, BTOK, or
a result held behind an earlier fixed write, whose reader waits without end (16_prog_lut.md R419). Records of the thread that a trap has set aside hold no handler bundle back (09_core_traps.md R261). -/
def Core.interlocked (k : Core) (x : Dst) : Bool :=
  k.memq.any (fun m => m.kind.dst == some x && m.handler == k.handler) || k.held.any (fun h => h.dst == x && h.handler == k.handler) ||
    k.eng.btoks.any (fun b => Dst.b b.dst == x && b.handler == k.handler)

/-- Bits [hi:lo] of a value. -/
def bits (v hi lo : Nat) : Nat := v / 2 ^ lo % 2 ^ (hi - lo + 1)

end Sys2Proof.Machine
end

