-- ==== Sys2Proof/Machine/Land.lean ====
section
/-! DEFINITION. Statistics records and the landing of fixed-latency writes (01_bundles.md R15, R16, R32, R37; 03_numbers.md R95;
05_vector.md R156; 09_core_traps.md R275, R276). -/

namespace Sys2Proof.Machine

open Sys2Proof

/-- When space returns to the queue, a LOST record goes in at once and STATLOST is cleared (R275). Its SCYC is the cycle at which it goes in and
its BADDR is 0 (DESIGN CHOICE, log 79). -/
def Core.postLost (k : Core) : Core :=
  if k.csr.statLost = 0 ∨ k.stats.length ≥ 512 then k
  else
    let lost : StatRec := ⟨0x02, if k.handler then 0x80 else 0, 0, k.csr.statLost.toNat, 0, k.now, 0, 0⟩
    { k with stats := k.stats ++ [lost], csr := { k.csr with statLost := 0 } }

/-- Posts one record into the queue of 512: with EN 0 nothing is posted or counted; a record that finds the queue full is counted in
STATLOST; when there is space again a LOST record goes first (R275). -/
def Core.post (k : Core) (r : StatRec) : Core :=
  if !k.csr.statEn then k
  else
    let k := k.postLost
    if k.stats.length ≥ 512 then { k with csr := { k.csr with statLost := k.csr.statLost + 1 } } else { k with stats := k.stats ++ [r] }

/-- The HANDLER bit of SOURCE beside a slot (Table 9-9). -/
def sourceOf (slot : Nat) (handler : Bool) : Nat := slot + (if handler then 0x80 else 0)

/-- The arithmetic records of one instruction (R95). OBJECT carries nothing for them (DEDUCED, log 8). -/
def Core.postEvents (k : Core) (slot : Nat) (handler : Bool) (baddr : W64) (iss : Nat) (l : List EvSum) : Core :=
  l.foldl (fun k e => k.post ⟨e.code, sourceOf slot handler, 0, e.count, baddr, iss, e.first, 0⟩) k

/-- The mark, beside the 256 byte enables of a v register, of a write to element 0 of a nibble type: of lane 0 its low half only
(05_vector.md R147). -/
def nibbleOnly : Nat := 2 ^ 256

/-- A v register with the lanes of `en` written. -/
def mergeReg (old new en : Nat) : Nat :=
  let r := mergeLanes 8 256 old new en
  if en.testBit 256 then r / 256 * 256 + old % 256 / 16 * 16 + new % 16 else r

/-- The value a write alone gives its destination, for the files written by lanes (R15): v and tile rows by byte lane, p by bit. -/
def Core.mergedVal (k : Core) (w : Pend) : Nat :=
  match w.dst with
  | .v n => mergeReg (k.regs.v[n]).toNat w.val w.en
  | .tile x r => mergeLanes 8 256 ((k.regs.x[x])[r]).toNat w.val w.en
  | .p n => mergeLanes 1 256 (k.regs.p[n]).toNat w.val w.en
  | _ => w.val

def writeS (r : Regs) (handler : Bool) (n : Fin 32) (v : W64) : Regs :=
  if handler && decide (28 ≤ n.val) then { r with hbS := r.hbS.setIfInBounds (n.val - 28) v } else { r with s := r.s.set n v }

def writeA (r : Regs) (handler : Bool) (n : Fin 16) (v : W64) : Regs :=
  if handler && decide (14 ≤ n.val) then { r with hbA := r.hbA.setIfInBounds (n.val - 14) v } else { r with a := r.a.set n v }

/-- STATCTL.EN can be 1 only while STATSIZE is a power of two of at least 1 (R275). -/
def statSizeOk (n : W32) : Bool := n != 0 && (n &&& (n - 1)) == 0

/-- A value written to an engine-core CSR (Table 9-11): reserved bits are dropped, read-only numbers ignore it. -/
def writeCsr (r : Regs) (c : Csrs) (n : Nat) (v : W64) : Regs × Csrs :=
  match n with
  | 0x002 => (r, { c with tctl := v.getLsbD 0 })
  | 0x010 => (r, { c with tvec := v })
  | 0x011 => (r, { c with tframe := BitVec.ofNat 19 (v.toNat % 2 ^ 19 / 64 * 64) })
  | 0x012 => (r, { c with tdeleg := v.setWidth 32 ||| 0x00888000 })
  | 0x013 => (r, { c with tepc := v })
  | 0x020 => ({ r with rng := r.rng.set 0 v }, c)
  | 0x021 => ({ r with rng := r.rng.set 1 v }, c)
  | 0x022 => ({ r with rng := r.rng.set 2 v }, c)
  | 0x023 => ({ r with rng := r.rng.set 3 v }, c)
  | 0x024 => ({ r with sl := (r.sl.set 0 (v.setWidth 8)).set 1 ((v >>> 8).setWidth 8) }, c)
  | 0x030 => (r, { c with statEn := v.getLsbD 0 && statSizeOk c.statSize })
  | 0x031 => (r, { c with waitMin := v.setWidth 32 })
  | 0x032 => (r, { c with statBase := v, statEn := c.statEn && (v == 0 || v.toNat % 32 == 0) })
  | 0x033 => (r, { c with statSize := v.setWidth 32, statEn := c.statEn && statSizeOk (v.setWidth 32) })
  | 0x034 => (r, { c with statHead := v.setWidth 32 })
  | 0x040 => (r, { c with bpVal := c.bpVal.set 0 v })
  | 0x041 => (r, { c with bpVal := c.bpVal.set 1 v })
  | 0x042 => (r, { c with bpVal := c.bpVal.set 2 v })
  | 0x043 => (r, { c with bpVal := c.bpVal.set 3 v })
  | 0x044 => (r, { c with bpCtl := c.bpCtl.set 0 (v.setWidth 32 &&& 0x7) })
  | 0x045 => (r, { c with bpCtl := c.bpCtl.set 1 (v.setWidth 32 &&& 0x7) })
  | 0x046 => (r, { c with bpCtl := c.bpCtl.set 2 (v.setWidth 32 &&& 0x7) })
  | 0x047 => (r, { c with bpCtl := c.bpCtl.set 3 (v.setWidth 32 &&& 0x7) })
  | 0x048 => (r, { c with wpAddr := c.wpAddr.set 0 v })
  | 0x049 => (r, { c with wpAddr := c.wpAddr.set 1 v })
  | 0x04A => (r, { c with wpAddr := c.wpAddr.set 2 v })
  | 0x04B => (r, { c with wpAddr := c.wpAddr.set 3 v })
  | 0x04C => (r, { c with wpCtl := c.wpCtl.set 0 (v.setWidth 32 &&& 0x3F1F) })
  | 0x04D => (r, { c with wpCtl := c.wpCtl.set 1 (v.setWidth 32 &&& 0x3F1F) })
  | 0x04E => (r, { c with wpCtl := c.wpCtl.set 2 (v.setWidth 32 &&& 0x3F1F) })
  | 0x04F => (r, { c with wpCtl := c.wpCtl.set 3 (v.setWidth 32 &&& 0x3F1F) })
  | _ => (r, c)

/-- A value written to a Taproot CSR (14_package.md Table 14-4). -/
def writeTapCsr (t : TapCsrs) (n : Nat) (v : W64) : TapCsrs :=
  match n with
  | 0x400 => { t with psm := v.getLsbD 1, ie := v.getLsbD 2, pie := v.getLsbD 3 }
  | 0x401 => { t with vec := v }
  | 0x402 => { t with epc := v }
  | 0x403 => { t with cause := v &&& 0x80000000000000FF }
  | 0x404 => { t with bad := v }
  | 0x405 => { t with root := v &&& 0x80003FFFFFFFFFFF }
  | 0x406 => { t with irqEn := v &&& 0xFF }
  | 0x409 => { t with tcmp := v }
  | _ => t

/-- Writes a codebook register and advances cb.gen (06_lut_engine.md R169 to R171). -/
def writeCb (r : Regs) (sel : Fin 5) (v : Nat) : Regs :=
  let r := if sel.val = 0 then { r with cbCfg := BitVec.ofNat 16 v }
    else { r with cbVal := r.cbVal.setIfInBounds (sel.val - 1) (BitVec.ofNat 32 v) }
  { r with cbGen := r.cbGen + 1 }

def Ring.nslot (g : Ring) : Nat := bits g.desc.toNat 31 24 + 1
def Ring.slotBytes (g : Ring) : Nat := 32 * bits g.desc.toNat 43 32
def Ring.win (g : Ring) : Bool := g.desc.getLsbD 19
def Ring.base (g : Ring) : Nat := bits g.desc.toNat 18 0

/-- The scratchpad offset of the slot of an entry: entry k occupies slot k mod NSLOT. -/
def Ring.slotAddr (g : Ring) (e : BitVec 32) : Nat := g.base + (e.toNat % g.nslot) * g.slotBytes

/-- T advances over entry k when k = T and entry k is finished (08_core_memory.md R221); C follows T in a ring that is no window ring. -/
def Ring.pushAux : Nat → Ring → Ring
  | 0, g => g
  | n + 1, g =>
    if g.done.contains g.t then
      let t := g.t + 1
      Ring.pushAux n { g with t := t, c := if g.win then g.c else t, done := g.done.filter fun e => e != g.t }
    else g

/-- An entry is finished: it and every finished entry behind it are pushed in assignment order (R221). -/
def Ring.finish (g : Ring) (e : BitVec 32) : Ring :=
  let g := { g with done := g.done ++ [e] }
  Ring.pushAux g.done.length g

/-- The bytes of the header VTBLD writes with FIRST = 1 (05_vector.md Table 5-10), 48 with the zeroed scale bytes. -/
def vtbldHeader (cfg cbGen g row ng : Nat) : List (BitVec 8) :=
  [2, BitVec.ofNat 8 (cfg % 4)] ++ bytesOf 0 2 ++ bytesOf (row + 1) 2 ++ bytesOf ng 2 ++ bytesOf (g * ng) 2 ++
    bytesOf (bits cfg 12 9) 2 ++ bytesOf cbGen 2 ++ bytesOf (bits cfg 7 7 + 2 * bits cfg 8 8) 2 ++ bytesOf 0x78 4 ++
    bytesOf 32 4 ++ bytesOf 48 4 ++ bytesOf 0 4 ++ bytesOf 0 16

/-- Codebook parameters of a cb.cfg value (06_lut_engine.md Table 6-1): CODE, G, HALVE, LAYOUT, BLOCK, P. -/
def cbCode (cfg : Nat) : Nat := cfg % 4
def cbG (cfg : Nat) : Nat := bits cfg 6 4
def cbHalve (cfg : Nat) : Bool := cfg.testBit 7
def cbLayout (cfg : Nat) : Bool := cfg.testBit 8
def cbBlock (cfg : Nat) : Nat := bits cfg 12 9
def cbP (cfg : Nat) : Nat := bits cfg 15 13 + 1
/-- The code width C (05_vector.md R154). -/
def cbC (cfg : Nat) : Nat :=
  match cbCode cfg with
  | 0 => 3 | 1 => 4 | 2 => 16 | _ => 2
/-- Table entries per group (05_vector.md R154, Table 6-4). -/
def cbE (cfg : Nat) : Nat :=
  let n := cbC cfg ^ cbG cfg
  if cbHalve cfg then (n + 1) / 2 else n
/-- val[d]: byte d of the cb.val registers, or −1 and +1 when seeded (R154). -/
def cbValOf (cfg vals d : Nat) : Int :=
  if cbCode cfg = 3 then (if d = 0 then -1 else 1) else sInt 8 (elemAt vals 8 d)
/-- Bytes of one table row (R154). -/
def tableRowBytes (cfg ng : Nat) : Nat :=
  if cbLayout cfg then 2 * cbE cfg * ((ng + 3) / 4 * 4) else 2 * cbE cfg * ng
/-- Offset of entry v of group g in its row (R154). -/
def entryOffset (cfg g v : Nat) : Nat :=
  if cbLayout cfg then 2 * (4 * cbE cfg * (g / 4) + 4 * v + g % 4) else 2 * (g * cbE cfg + v)

/-- entry(g, v) of R154: Σ val[digit j of v] · a[G·g + j], exact. -/
def tableEntryAux (cfg vals acts base : Nat) : Nat → Nat → Nat → Int → Int
  | 0, _, _, acc => acc
  | k + 1, j, v, acc =>
    tableEntryAux cfg vals acts base k (j + 1) (v / cbC cfg)
      (acc + cbValOf cfg vals (v % cbC cfg) * sInt 8 (elemAt acts 8 (base + j)))

def tableEntry (cfg vals acts g v : Nat) : Int := tableEntryAux cfg vals acts (cbG cfg * g) (cbG cfg) 0 v 0

/-- All entries of a row with their offsets, the zero entries of added groups under LAYOUT 1 among them (R154). -/
def tableRow (cfg vals acts ng : Nat) : List (Nat × Int) :=
  let n := if cbLayout cfg then (ng + 3) / 4 * 4 else ng
  (List.range n).flatMap fun g => (List.range (cbE cfg)).map fun v =>
    (entryOffset cfg g v, if g < ng then tableEntry cfg vals acts g v else 0)

/-- Bytes `lo` to `hi` of a tile that a store is about to change: of each that the engine has not read yet it is free whether it has read
the old value by now (06_lut_engine.md R183). `draw` numbers the free values. -/
def Tile.freeze (t : Tile) (draw : Nat) (old new : Bytes) (slot : Nat) : Tile :=
  { t with fixed := (List.range slot).foldl (fun f i =>
      if !t.fixed.testBit i && sget old (t.addr + i) != sget new (t.addr + i) && !Config.tileByteNew (draw + i) then f + 2 ^ i else f) t.fixed
           val := packElems 8 ((List.range slot).map fun i => if t.fixed.testBit i then elemAt t.val 8 i else (sget old (t.addr + i)).toNat) }

/-- The tiles of a started lookup whose bytes it may read at any time: the table tile and the weight tile, the first two it takes (R183).
Each
byte has a draw of its own. The one tile of an MMASK is read at its start. -/
def MatCmd.freeze (m : MatCmd) (draw : Nat) (old new : Bytes) (slot : Fin 16 → Nat) : MatCmd :=
  match m.st with
  | .started =>
    match m.tiles with
    | t :: w :: l => { m with tiles := t.freeze draw old new (slot t.ring) :: w.freeze (draw + 2 ^ 18) old new (slot w.ring) :: l }
    | _ => m
  | .waiting => m
  | .held _ _ _ _ => m

/-- Whether the LUT engine may be reading tiles: a command has started, or a table tile is kept (R183; 07_matrix_ops.md R203). -/
def Engines.reading (x : Engines) : Bool :=
  x.kept.isSome || x.mq.any fun m => match m.st with
    | .started => true
    | .waiting => false
    | .held _ _ _ _ => false

/-- The scratchpad's bytes become `new`: where some change, tiles that the LUT engine is reading keep what it has read of them (R183;
07_matrix_ops.md R203). -/
def Core.setSpad (k : Core) (new : Bytes) : Core :=
  if k.eng.reading && new != k.spad then
    let slot (h : Fin 16) : Nat := (k.rings[h]).slotBytes
    let x := k.eng
    { k with
      spad := new
      eng := { x with
        mq := x.mq.map fun m => m.freeze x.draws k.spad new slot
        kept := x.kept.map fun t => { t with tile := t.tile.freeze (x.draws + 2 ^ 19) k.spad new (slot t.tile.ring) }
        draws := x.draws + 2 ^ 20 } }
  else { k with spad := new }

/-- A VTBLD write lands: header or ROWS, scale byte and row, and the push when LAST (05_vector.md R156); nothing if its ring was
initialised anew or its entry discarded (08_core_memory.md R227). -/
def landVtbld (k : Core) (ring : Fin 16) (acts : Nat) (t : VtbldArgs) : Core :=
  let g := k.rings[ring]
  let e := BitVec.ofNat 32 t.entry
  if g.gen.toNat ≠ t.ringGen ∨ !g.init ∨ decide ((e - g.h).toNat ≥ (g.a - g.h).toNat) then k else
  let row := t.desc % 2 ^ 16
  let ng := bits t.desc 31 16
  let first := t.desc.testBit 32
  let last := t.desc.testBit 33
  let at0 := g.slotAddr e
  let m := if first then writeBytes k.spad at0 (vtbldHeader t.cfg t.cbGen (cbG t.cfg) row ng)
    else writeLE k.spad (at0 + 4) 2 (Nat.max (readLE k.spad (at0 + 4) 2) (row + 1))
  let m := sset m (at0 + 32 + row) (BitVec.ofNat 8 t.scale)
  let r0 := at0 + 48 + row * tableRowBytes t.cfg ng
  let m := (tableRow t.cfg t.vals acts ng).foldl (fun m p => writeLE m (r0 + p.1) 2 (wrapInt 16 p.2)) m
  { k.setSpad m with rings := k.rings.set ring (if last then g.finish e else g) }

/-- Fields of a shape request or grant (04_control_scalar.md Table 4-4). -/
def shKind (v : Nat) : Nat := bits v 31 30
def shN (v : Nat) : Nat := bits v 29 20
def shM (v : Nat) : Nat := bits v 19 13
def shKB (v : Nat) : Nat := bits v 12 5
def shVL (v : Nat) : Nat := bits v 8 0

/-- The register effect of one landing write with its merged value (R32). A vector grant that lands in an sh register sets VL
(04_control_scalar.md R110). -/
def Core.applyWrite (k : Core) (w : Pend) (v : Nat) : Core :=
  let r := k.regs
  match w.dst with
  | .s n => { k with regs := writeS r w.handler n (BitVec.ofNat 64 v) }
  | .a n => { k with regs := writeA r w.handler n (BitVec.ofNat 64 v) }
  | .v n => { k with regs := { r with v := r.v.set n (BitVec.ofNat 2048 v) } }
  | .p n => if n = 0 then k else { k with regs := { r with p := r.p.set n (BitVec.ofNat 256 v) } }
  | .b n => { k with regs := { r with b := r.b.set n (BitVec.ofNat 64 v) } }
  | .lc n => { k with regs := { r with lc := r.lc.set n (BitVec.ofNat 32 v) } }
  | .sk n => { k with regs := { r with sk := r.sk.set n (v % 2 == 1) } }
  | .sh n => { k with regs := { r with sh := r.sh.set n (BitVec.ofNat 64 v),
                                       vl := if shKind v = 0 ∧ 1 ≤ shVL v ∧ shVL v ≤ 256 then shVL v else r.vl } }
  | .f n => { k with regs := { r with f := r.f.set n (BitVec.ofNat 17 v) } }
  | .tile x row => { k with regs := { r with x := r.x.set x ((r.x[x]).set row (BitVec.ofNat 2048 v)) } }
  | .cb sel => { k with regs := writeCb r sel v }
  | .sl e => { k with regs := { r with sl := r.sl.set (if e then 1 else 0) (BitVec.ofNat 8 v) (by split <;> decide) } }
  | .csr n =>
    if n ≥ 0x400 then { k with tap := writeTapCsr k.tap n (BitVec.ofNat 64 v) }
    else
      let x := writeCsr r k.csr n (BitVec.ofNat 64 v)
      { k with regs := x.1, csr := x.2, statStuck := k.statStuck && !(n == 0x030 || n == 0x032 || n == 0x034) }
  | .vtbld ring => match w.vt with | some t => landVtbld k ring v t | none => k

/-- The bypass latch effect of one landing write (R15, R16): bp.s and bp.a keep the 64-bit value, the others the register's. -/
def Core.applyLatch (k : Core) (w : Pend) (v : Nat) : Core :=
  match w.latch with
  | some l => { k with regs := { k.regs with bp := k.regs.bp.set l (BitVec.ofNat 2048 v) } }
  | none => k

/-- VTRD updates bp.x beside the latch of its engine (05_vector.md R136, R162); its writes carry the tile-read mark in `vt`. -/
def Core.applyTileLatch (k : Core) (w : Pend) (v : Nat) : Core :=
  match w.dst, w.vt with
  | .v _, some _ => { k with regs := { k.regs with bp := k.regs.bp.set 7 (BitVec.ofNat 2048 v) } }
  | _, _ => k

/-- Order of landing within one cycle: a higher slot, then a later issue, comes last and is kept (R37). -/
def Pend.before (a b : Pend) : Bool := decide (a.slot < b.slot) || (a.slot == b.slot && decide (a.iss ≤ b.iss))

def insertPend (w : Pend) : List Pend → List Pend
  | [] => [w]
  | x :: l => if x.before w then x :: insertPend w l else w :: x :: l

def sortPends : List Pend → List Pend
  | [] => []
  | w :: l => insertPend w (sortPends l)

/-- Whether two destinations are one register; the SL register covers both scale latches (03_numbers.md R82, Table 3-6). -/
def Dst.clash (a b : Dst) : Bool :=
  match a, b with
  | .csr 0x024, .sl _ => true
  | .sl _, .csr 0x024 => true
  | .vtbld _, .vtbld _ => false
  | a, b => a == b

/-- The latches a write updates (R15, R136). -/
def Pend.latches (w : Pend) : List Nat :=
  (match w.latch with | some l => [l.val] | none => []) ++
    (match w.dst, w.vt with | .v _, some _ => [7] | _, _ => [])

/-- COLLIDE records of one landing cycle (R37): for each losing write one for its register, and one for each latch it loses to a write of
another register. `w` is judged against the writes that land after it. Writes to p0 count like those to another register, although both are
discarded (DESIGN CHOICE, log 64). -/
def collideOne (land : Nat) (w : Pend) (later : List Pend) : List StatRec :=
  let regWin := (later.filter fun x => x.dst.clash w.dst && x.handler == w.handler).getLast?
  let reg := match regWin with
    | some x => [(⟨0x01, sourceOf x.slot x.handler, x.dst.file, 1, x.baddr, land, w.slot, x.dst.index⟩ : StatRec)]
    | none => []
  let lat := w.latches.filterMap fun l =>
    match (later.filter fun x => x.latches.contains l).getLast? with
    | some x => if x.dst.clash w.dst then none
        else some (⟨0x01, sourceOf x.slot x.handler, 14, 1, x.baddr, land, w.slot, 32 + l⟩ : StatRec)
    | none => none
  reg ++ lat

def collides (land : Nat) : List Pend → List StatRec
  | [] => []
  | w :: l => collideOne land w l ++ collides land l

/-- A pending fixed write of the same mode, from a bundle that issued no later, to the register of an interlocked result (R34). One of the same
bundle is such a write too: R34 orders only those of earlier bundles, and the interlocked result is the one kept (DESIGN CHOICE, log 78). -/
def Held.behind (h : Held) (w : Pend) : Bool := w.dst == h.dst && w.handler == h.handler && decide (w.iss ≤ h.iss)

/-- The register effect of a landing write beside results that a return has landed before it: what they wrote stays (R34; 09_core_traps.md
R261; DEDUCED, log 65). -/
def Core.applyKept (k : Core) (w : Pend) (v : Nat) : Core :=
  match k.stay.filter fun h => h.behind w with
  | [] => k.applyWrite w v
  | l =>
    match w.dst with
    | .v n => k.applyWrite w (l.foldl (fun v h => mergeLanes 8 256 v (k.regs.v[n]).toNat h.en) v)
    | _ => k

/-- Lands a list of writes of one cycle, in order, each merged with the registers as they stood before the cycle (R15, R37). -/
def Core.landList (k0 : Core) : List Pend → Core → Core
  | [], k => k
  | w :: l, k =>
    let v := k0.mergedVal w
    let k := ((k.applyKept w v).applyLatch w v).applyTileLatch w v
    k0.landList l (k.postEvents w.slot w.handler w.baddr w.iss w.evs)

/-- An interlocked result takes its register. -/
def Core.applyHeld (k : Core) (h : Held) : Core :=
  match h.dst with
  | .v n => { k with regs := { k.regs with v := k.regs.v.set n (BitVec.ofNat 2048 (mergeLanes 8 256 (k.regs.v[n]).toNat h.val h.en)) } }
  | d => k.applyWrite ⟨0, 0, 0, 0, d, h.val, h.en, none, [], h.handler, none⟩ h.val

/-- Lands held results in order while no earlier fixed write to their register is pending (R34). -/
def Core.releaseHeld : List Held → Core → Core
  | [], k => k
  | h :: l, k =>
    if (k.pend ++ k.srb).any h.behind then Core.releaseHeld l { k with held := k.held ++ [h] }
    else Core.releaseHeld l (k.applyHeld h)

/-- The interlocked records of a return or a restore land at once, in the order they were saved, those of the mode that the core returns to.
What one wrote stays when a fixed write of no later bundle to its register, still pending, lands (09_core_traps.md R261; R34; DEDUCED,
log 65). -/
def Core.landHeld (k : Core) : Core :=
  let mine (h : Held) : Bool := h.handler == k.handler
  let t := (k.held.filter mine).foldl Core.applyHeld k
  { t with held := k.held.filter fun h => !mine h
           stay := k.stay ++ k.held.filter fun h => mine h && (k.pend ++ k.srb).any h.behind }

/-- Every pending write whose landing cycle has come lands (R32, R37). -/
def Core.landDue (k : Core) : Core :=
  let due := sortPends (k.pend.filter fun w => decide (w.land ≤ k.now))
  let k := { k with pend := k.pend.filter fun w => decide (¬ w.land ≤ k.now) }
  let k1 := k.landList due k
  let k1 := (collides k.now due).foldl Core.post k1
  Core.releaseHeld k1.held { k1 with
    held := []
    stay := if due.isEmpty then k1.stay else k1.stay.filter fun h => (k1.pend ++ k1.srb).any h.behind }

/-- One schedule cycle passes (R30), or one handler cycle in handler mode (09_core_traps.md R257). -/
def Core.tick (k : Core) : Core :=
  (if k.handler then { k with hcyc := k.hcyc + 1 } else { k with cyc := k.cyc + 1 }).landDue

/-- `n` idle cycles pass. -/
def Core.ticks : Nat → Core → Core
  | 0, k => k
  | n + 1, k => Core.ticks n k.tick

/-- Whether a trap of a Taproot core set this result's bundle aside together with a write that the result lands behind (R34). -/
def TapSaved.holds (x : TapSaved) (h : Held) : Bool := decide (h.iss < x.since) && x.writes.any h.behind

/-- The result joins what such a trap set aside, and goes on with it at the return (R44; 14_package.md R371; DEDUCED, log 75). -/
def setAside (h : Held) : List TapSaved → List TapSaved
  | [] => []
  | x :: l => if x.holds h then { x with held := x.held ++ [h] } :: l else x :: setAside h l

/-- An interlocked result of a bundle that issued at `iss` lands, or is held behind an earlier fixed write to its register (R34), one that a
trap of a Taproot core has set aside included. -/
def Core.arrive (k : Core) (iss slot : Nat) (handler : Bool) (d : Dst) (v en : Nat) : Core :=
  let h : Held := ⟨d, v, en, iss, handler, slot⟩
  if k.tap.saved.any fun x => x.holds h then { k with tap := { k.tap with saved := setAside h k.tap.saved } } else Core.releaseHeld [h] k

end Sys2Proof.Machine
end

