-- ==== Sys2Proof/Machine/Lookup.lean ====
section
/-! DEFINITION. What a lookup computes from its tiles: fields, checks, block sums, rescale, mask, elements, and where it stops
(03_numbers.md R90 to R95; 06_lut_engine.md R173 to R189; 07_matrix_ops.md R199 to R211; 09_core_traps.md R262). -/

namespace Sys2Proof.Machine

open Sys2Proof

/-- A lookup form (Table 7-3): rings, region, shape register, CLR, index lists, weight tiles of seed records, table tile kept. -/
structure LutForm where
  ht : Fin 16
  hw : Fin 16
  row : Fin 64
  col : Fin 16
  sh : Fin 4
  clr : Bool
  lists : Option (Fin 16 × Fin 16)
  seeded : Bool
  keep : Bool
  deriving DecidableEq, Repr

/-- Rings that a form names, each once. -/
def LutForm.rings (f : LutForm) : List (Fin 16) :=
  match f.lists with
  | none => [f.ht, f.hw]
  | some (p, s) => if p = s then [f.ht, f.hw, p] else [f.ht, f.hw, p, s]

/-- The lookup form of a matrix operation. -/
def lutForm : MatrixOp → Option LutForm
  | .mlut ht hw row col sh clr => some ⟨ht, hw, row, col, sh, clr, none, false, false⟩
  | .mlutg ht hw row col sh clr hp hs => some ⟨ht, hw, row, col, sh, clr, some (hp, hs), false, false⟩
  | .mluts ht hw row col sh clr => some ⟨ht, hw, row, col, sh, clr, none, true, false⟩
  | .mlutsg ht hw row col sh clr hp hs => some ⟨ht, hw, row, col, sh, clr, some (hp, hs), true, false⟩
  | .mlutk ht hw row col sh clr => some ⟨ht, hw, row, col, sh, clr, none, false, true⟩
  | .mlutgk ht hw row col sh clr hp hs => some ⟨ht, hw, row, col, sh, clr, some (hp, hs), false, true⟩
  | .mnop => none
  | .mcbset _ _ => none
  | .maclr _ _ _ => none
  | .mmask _ => none
  | .mstat _ _ => none
  | .mcbget _ _ => none
  | .macrd _ _ _ => none
  | .macwr _ _ _ => none
  | .mbias _ _ _ => none
  | .mreset => none

/-- `n` bytes of a byte memory from an address, little-endian, by one pass over the listed bytes. -/
def rangeValue (m : Bytes) (a n : Nat) : Nat :=
  m.foldl (fun v x => if a ≤ x.1 ∧ x.1 < a + n then v + x.2.toNat <<< (8 * (x.1 - a)) else v) 0

/-- Field of `n` bytes at an offset of a tile (Table 6-5). -/
def tileField (t off n : Nat) : Nat := t >>> (8 * off) % 2 ^ (8 * n)

def tKind (t : Nat) : Nat := tileField t 0 1
def tCode (t : Nat) : Nat := tileField t 1 1
def tRows (t : Nat) : Nat := tileField t 4 2
def tCols (t : Nat) : Nat := tileField t 6 2
def tKlen (t : Nat) : Nat := tileField t 8 2
def tBlock (t : Nat) : Nat := tileField t 10 2
def tCbGen (t : Nat) : Nat := tileField t 12 2
def tFlags (t : Nat) : Nat := tileField t 14 2
def tScaleOff (t : Nat) : Nat := tileField t 20 4
def tPayloadOff (t : Nat) : Nat := tileField t 24 4

/-- Quotient rounded up. -/
def ceilDiv (a b : Nat) : Nat := (a + b - 1) / b

/-- Width of a stored code (Table 6-3). -/
def codeWidth (cfg : Nat) : Nat := if cbG cfg > (if cbCode cfg = 2 then 1 else 2) then 8 else 4

/-- Groups of a scale block (R175). -/
def groupsPerBlock (cfg : Nat) : Nat := 2 ^ cbBlock cfg / cbG cfg

/-- Number of codes of a group. -/
def codeCount (cfg : Nat) : Nat := cbC cfg ^ cbG cfg

/-- What a started lookup works on: its form, snapshot, grant, and its tiles; `t` table, `w` weights, `p` and `s` the index lists. -/
structure LutJob where
  f : LutForm
  cfg : Nat
  gm : Nat
  gn : Nat
  gk : Nat
  t : Nat
  w : Nat
  p : Nat
  s : Nat
  deriving DecidableEq, Repr

def LutJob.gathered (j : LutJob) : Bool := j.f.lists.isSome
/-- Groups of the weight tile (R177). -/
def LutJob.ng (j : LutJob) : Nat := ceilDiv (tKlen j.w) (cbG j.cfg)
/-- Blocks of the weight tile (R175). -/
def LutJob.blocks (j : LutJob) : Nat := ceilDiv j.ng (groupsPerBlock j.cfg)
/-- Rows of the command (R182, R201, R202). -/
def LutJob.rows (j : LutJob) : Nat := Nat.min (if j.gathered then tCols j.p else tRows j.t) j.gm
def LutJob.cols (j : LutJob) : Nat := Nat.min (tCols j.w) j.gn
/-- Bytes of a column's code run (Table 6-6). -/
def LutJob.runBytes (j : LutJob) : Nat := 4 * ceilDiv (j.ng * codeWidth j.cfg) 32
def LutJob.rowBytes (j : LutJob) : Nat := tableRowBytes j.cfg j.ng
/-- Entries of an index list (R201). -/
def listEntry (t i : Nat) : Nat := tileField t (tPayloadOff t + i) 1
/-- Table row and accumulator row of row `i` (R200, R201). -/
def LutJob.tableRow (j : LutJob) (i : Nat) : Nat := if j.gathered then listEntry j.p i else i
def LutJob.accRow (j : LutJob) (i : Nat) : Nat := j.f.row.val + (if j.gathered then listEntry j.s i else i)
/-- The seed record of column `n` and block `q` (Table 6-7). -/
def LutJob.seedRec (j : LutJob) (n q : Nat) : Nat := tileField j.w (tPayloadOff j.w + 16 * (n * j.blocks + q)) 16
def recSeed (r : Nat) : Nat := r % 2 ^ 24
def recBases (r : Nat) : Nat := bits r 26 24 + 1
def recCoef (r p : Nat) : Int := sInt 8 (elemAt r 8 (4 + p))
def recScale (r : Nat) : Nat := elemAt r 8 12
def recDraw (r : Nat) : Nat := bits r 123 104
def recReserved (r : Nat) : Bool := bits r 31 27 != 0 || bits r 127 124 != 0
/-- The seed records within cols and NB. -/
def LutJob.seedRecs (j : LutJob) : List Nat := (List.range (j.cols * j.blocks)).map fun i => tileField j.w (tPayloadOff j.w + 16 * i) 16

/-- A byte range outside a slot; an empty range names no byte. -/
def outside (off len slot : Nat) : Bool := decide (len ≠ 0) && decide (off + len > slot)

/-- Header fields that Table 6-5 fixes for every kind the engine takes (Table 6-8, row 2). -/
def hdrReserved (t : Nat) : Bool :=
  tileField t 28 4 != 0 || tFlags t / 4 != 0 || tileField t 2 2 != 0 || tileField t 16 4 / 256 != 0

/-- An index list that row 1 of Table 7-5 refuses. -/
def listBad (t : Nat) : Bool :=
  tKind t != 1 || tRows t != 1 || tCols t == 0 || decide (tCols t > 16) || tCode t != 0 || tileField t 2 2 != 0 || tKlen t != 0 ||
    tBlock t != 0 || tCbGen t != 0 || tFlags t != 0

/-- Whether a list of numbers repeats one. -/
def repeats : List Nat → Bool
  | [] => false
  | x :: l => l.contains x || repeats l

/-- Tables 6-8 and 7-5 in order: cause and LUT status of the first check that fails. `slot h` is the slot size of a ring. Check 7 counts the
rows of R182 for every form; only check 6 counts those of the pick list (R180, R202). A picked row at or above those of check 7 may so lie past
the slot, and reads as 0 there (DESIGN CHOICE, log 39). -/
def LutJob.check (j : LutJob) (gen : Nat) (slot : Fin 16 → Nat) : Option (Cause × Nat) :=
  let cfg := j.cfg
  let pay := if j.f.seeded then 16 * j.cols * j.blocks else j.cols * j.runBytes
  let last := Nat.min (tRows j.t) j.gm
  let recs := if j.f.seeded then j.seedRecs else []
  if tKind j.t ≠ 2 ∨ tKind j.w ≠ (if j.f.seeded then 4 else 3) then some (.engine, 0x01)
  else if hdrReserved j.t ∨ hdrReserved j.w ∨ tCbGen j.w ≠ 0 ∨ recs.any recReserved then some (.engine, 0x02)
  else if tCbGen j.t ≠ gen then some (.staleTable, 0)
  else if tCode j.t ≠ cbCode cfg ∨ tBlock j.t ≠ cbBlock cfg ∨ (tFlags j.t).testBit 0 ≠ cbHalve cfg ∨
      (tFlags j.t).testBit 1 ≠ cbLayout cfg ∨ tCode j.w ≠ cbCode cfg ∨ tBlock j.w ≠ cbBlock cfg ∨
      j.f.seeded ≠ (cbCode cfg == 3) then some (.engine, 0x03)
  else if tCols j.t ≠ j.ng ∨ j.ng = 0 then some (.engine, 0x04)
  else if j.rows * j.rowBytes > 32768 ∨ pay > 16384 then some (.engine, 0x05)
  else if outside (tScaleOff j.t) last (slot j.f.ht) ∨ outside (tPayloadOff j.t) (last * j.rowBytes) (slot j.f.ht) ∨
      outside (tPayloadOff j.w) pay (slot j.f.hw) ∨ (!j.f.seeded ∧ outside (tScaleOff j.w) (j.cols * j.blocks) (slot j.f.hw))
    then some (.engine, 0x06)
  else if recs.any fun r => decide (recBases r > cbP cfg) then some (.engine, 0x07)
  else if recs.any fun r => recDraw r == 0xFFFFF then some (.saplingExhausted, 0)
  else match j.f.lists with
    | none => none
    | some (hp, hs) =>
      if listBad j.p ∨ listBad j.s then some (.engine, 0x08)
      else if outside (tPayloadOff j.p) (tCols j.p) (slot hp) ∨ outside (tPayloadOff j.s) (tCols j.s) (slot hs) then some (.engine, 0x06)
      else if tCols j.p ≠ tCols j.s then some (.engine, 0x08)
      else if (List.range j.rows).any fun i => decide (listEntry j.p i ≥ tRows j.t) then some (.engine, 0x0A)
      else if (List.range j.rows).any fun i => decide (j.accRow i > 63) then some (.engine, 0x0B)
      else if repeats ((List.range j.rows).map (listEntry j.s)) then some (.engine, 0x0C)
      else none

/-- Groups of block `q` (R184). -/
def LutJob.blockGroups (j : LutJob) (q : Nat) : List Nat :=
  let bg := groupsPerBlock j.cfg
  (List.range (Nat.min j.ng ((q + 1) * bg) - q * bg)).map (q * bg + ·)

/-- The stored code of group `g` of column `n` (R173). -/
def LutJob.code (j : LutJob) (n g : Nat) : Nat :=
  let run := tPayloadOff j.w + n * j.runBytes
  if codeWidth j.cfg = 8 then tileField j.w (run + g) 1
  else let b := tileField j.w (run + g / 2) 1; if g % 2 = 0 then b % 16 else b / 16

/-- The table entry that code `v` selects in group `g` of table row `r` (R174); an out-of-range code gives 0. -/
def LutJob.lookup (j : LutJob) (r g v : Nat) : Int :=
  let entry (v : Nat) : Int := sInt 16 (tileField j.t (tPayloadOff j.t + r * j.rowBytes + entryOffset j.cfg g v) 2)
  let cg := codeCount j.cfg
  if v ≥ cg then 0
  else if cbHalve j.cfg && decide (v ≥ cbE j.cfg) then -(entry (cg - 1 - v))
  else entry v

/-- The seeded codes of basis `p` for the groups of block `q` (R187, R188), from the record's stream. -/
def seedCodes (g bases p : Nat) (stream : List Bool) (n : Nat) : List Nat :=
  (List.range n).map fun i => packBits ((List.range g).map fun e => stream.getD ((g * i + e) * bases + p) false)

/-- What column `n` and block `q` look up: coefficient and codes of each basis, one of coefficient 1 for a plain form; scale code. -/
def LutJob.terms (j : LutJob) (n q : Nat) : List (Int × List Nat) × Nat :=
  let gs := j.blockGroups q
  if j.f.seeded then
    let r := j.seedRec n q
    let bases := recBases r
    let g := cbG j.cfg
    if recSeed r = 0 then ([], recScale r)
    else
      let k0 := recDraw r * (g * groupsPerBlock j.cfg * bases)
      let stream := seedBits (g * gs.length * bases) 1 (seedState (k0 % (2 ^ 24 - 1)) (recSeed r))
      ((List.range bases).map fun p => (recCoef r p, seedCodes g bases p stream gs.length), recScale r)
  else ([(1, gs.map (j.code n))], tileField j.w (tScaleOff j.w + n * j.blocks + q) 1)

/-- The exact block sum (R90, R91, R184, R188) over table row `r`. -/
def LutJob.blockSum (j : LutJob) (r q : Nat) (terms : List (Int × List Nat)) : Int :=
  let gs := j.blockGroups q
  terms.foldl (fun acc t => acc + t.1 * ((gs.zip t.2).foldl (fun x p => x + j.lookup r p.1 p.2) 0)) 0

/-- R92: one rescale into an accumulator code. -/
def rescale (acc : Nat) (isum : Int) (s : Num) : Nat × Option Ev :=
  let p := Fmt.fp32.decode (Fmt.fp32.round .rne ((Num.ofInt isum).mul s)).1
  Fmt.fp32.round .rne ((Fmt.fp32.decode acc).add p)

/-- Whether an element is masked under a mask block (R211, Table 7-8); a mask of zero is disarmed. -/
def maskedBy (mask r c : Nat) : Bool :=
  let lowBits := tileField mask 2 2
  let tcol := tileField mask 4 2
  let trow := tileField mask 6 1
  let nt := tileField mask 7 1
  tileField mask 0 1 == 1 &&
    !(decide (c < lowBits) || decide (r < trow) || decide (r ≥ trow + nt) ||
      (decide (tcol ≤ c) && decide (c < tcol + nt) && (tileField mask (16 + 8 * (r - trow)) 8).testBit (c - tcol)))

/-- Element (i, n) of a lookup (R200): the blocks in ascending order. One that overflows in one block and meets a NaN in another counts in both
records (03_numbers.md R79, R95; DESIGN CHOICE, log 79). -/
def LutJob.element (j : LutJob) (acc : List (Nat × BitVec 32)) (mask i n : Nat) (cols : List (Nat × List (Int × List Nat) × Nat)) : LutElem :=
  let t := j.tableRow i
  let r := j.accRow i
  let c := 32 * j.f.col.val + n
  let idx := 512 * r + c
  let a := Fmt.e5m3.decode (tileField j.t (tScaleOff j.t + t) 1)
  let start : LutElem := ⟨i * j.cols + n, 512 * i + n, idx, if j.f.clr then 0 else (sget acc idx).toNat, false, false, false⟩
  let e := cols.foldl (fun (e : LutElem) b =>
    let x := rescale e.val (j.blockSum t b.1 b.2.1) ((Fmt.e5m3.decode b.2.2).mul a)
    { e with val := x.1, nan := e.nan || x.2 == some .nan, ovf := e.ovf || x.2 == some .ovf,
             bad := e.bad || b.2.1.any fun p => p.2.any fun v => decide (v ≥ codeCount j.cfg) }) start
  if maskedBy mask r c then { e with val := 0xFF800000, nan := false, ovf := false, bad := false } else e

/-- All elements of a lookup, rows outer (R200). -/
def LutJob.elements (j : LutJob) (acc : List (Nat × BitVec 32)) (mask : Nat) : List LutElem :=
  let nb := Nat.min j.blocks j.gk
  let cols := (List.range j.cols).map fun n => (n, (List.range nb).map fun q => (q, j.terms n q))
  (List.range j.rows).flatMap fun i => cols.map fun x => j.element acc mask i x.1 x.2

/-- One record of an event kind over element numbers (R95). -/
def tally (code : Nat) (l : List Nat) : List EvSum :=
  match l with
  | [] => []
  | x :: r => [⟨code, r.length + 1, r.foldl Nat.min x⟩]

/-- The records of a lookup (R173, R200), NAN first, then OVF, then BADCODE (DESIGN CHOICE, log 79). -/
def lutRecords (l : List LutElem) : List EvSum :=
  let nums (p : LutElem → Bool) : List Nat := (l.filter p).map (·.num)
  tally 0x20 (nums (·.nan)) ++ tally 0x21 (nums (·.ovf)) ++ tally 0x26 (nums (·.bad))

/-- The slot of a ring that a command has taken, 0 where it has taken none. -/
def MatCmd.tileOf (m : MatCmd) (h : Fin 16) : Nat := ((m.tiles.find? fun t => t.ring == h).map (·.val)).getD 0

/-- The job of a lookup on the tiles of its command. -/
def MatCmd.job (m : MatCmd) (f : LutForm) : LutJob :=
  ⟨f, m.cfg, m.gm, m.gn, m.gk, m.tileOf f.ht, m.tileOf f.hw, (f.lists.map fun l => m.tileOf l.1).getD 0,
    (f.lists.map fun l => m.tileOf l.2).getD 0⟩

/-- A tile as the engine reads it now: the bytes it has read keep the value they had (06_lut_engine.md R183). Bytes past the slot, which header
bytes changed after the checks can name, and the pick list of a gathered form whose rows check 7 does not count (R180; 07_matrix_ops.md R202),
read as 0 (DESIGN CHOICE, log 39). -/
def Tile.now (t : Tile) (m : Bytes) (slot : Nat) : Tile :=
  let now := rangeValue m t.addr slot
  { t with val := if t.fixed = 0 then now else packElems 8 ((List.range slot).map fun i => if t.fixed.testBit i then elemAt t.val 8 i else elemAt now 8 i) }

/-- A started lookup reading its table tile and its weight tile now. -/
def Core.readTiles (k : Core) (m : MatCmd) : MatCmd :=
  { m with tiles := (m.tiles.take 2).map (fun t => t.now k.spad (k.rings[t.ring]).slotBytes) ++ m.tiles.drop 2 }

/-- The elements of a started lookup: those completed before a stop, then the others (09_core_traps.md R262, R266). -/
def Core.lutElements (k : Core) (m : MatCmd) (f : LutForm) : List LutElem :=
  m.done ++ (((k.readTiles m).job f).elements k.eng.acc m.mask).drop m.done.length

/-- A command held at a failed check whose trap has been taken, or with `all` any held one. -/
def MState.heldAt (all : Bool) : MState → Bool
  | .held _ _ _ taken => all || taken
  | .waiting => false
  | .started => false

/-- Held commands run their checks again, on the bytes that their tiles then have: no table tile kept from before serves them
(06_lut_engine.md R181; 16_prog_lut.md R421). -/
def Engines.recheck (x : Engines) (all : Bool) : Engines :=
  { x with
    mq := x.mq.map fun m => if m.st.heldAt all then { m with st := .waiting } else m
    kept := x.kept.filter fun t => !(x.mq.any fun m => m.st.heldAt all && m.gens.any fun g => g.1 == t.tile.ring) }

/-- A started lookup stops between elements; how many it has completed is open (R262, R268; DESIGN CHOICE, log 39: free). -/
def Core.stopLut (k : Core) : Core :=
  match k.eng.mq with
  | [] => k
  | m :: l =>
    match lutForm m.op, m.st with
    | some f, .started =>
      let all := k.lutElements m f
      let n := m.done.length + Config.lutProgress k.eng.draws % (all.length - m.done.length + 1)
      { k with eng := { k.eng with mq := { m with done := all.take n } :: l, draws := k.eng.draws + 1 } }
    | _, _ => k

end Sys2Proof.Machine
end

