-- ==== Sys2Proof/Machine/Waits.lean ====
section
/-! DEFINITION. Who ends a wait: the agents of WAIT records, and the words at their homes that cores wait for (09_core_traps.md R277, Table
9-10; 10_cluster.md R287, R290; 13_scheduling.md R350; 12_die.md R324). -/

namespace Sys2Proof.Machine

open Sys2Proof

/-- Fields of a barrier word (Table 10-2). -/
def barExp (w : Nat) : Nat := bits w 63 48
def barArr (w : Nat) : Nat := bits w 47 32
def barWaitPh (w : Nat) : Bool := w.testBit 1
def barPh (w : Nat) : Bool := w.testBit 0

def barPack (exp arr : Nat) (waitPh ph : Bool) : Nat :=
  exp * 2 ^ 48 + arr * 2 ^ 32 + (if waitPh then 2 else 0) + (if ph then 1 else 0)

/-- A BARWAIT passes when PH differs from WAITPH or EXP is 0 (R290). -/
def barPasses (w : Nat) : Bool := barPh w != barWaitPh w || barExp w == 0

/-- Memory as the agents of die `d` find it at the homes: behind their own queued writes (R324). -/
def State.memFor (s : State) (d : Fin 4) : Bytes :=
  (s.die d).bridge.foldl (fun m w => writeLE m w.line 64 (mergeLanes 8 64 (readLE m w.line 64) w.data.toNat w.en.toNat)) s.mem

/-- Agents of Table 9-10. -/
def agentMem : Nat := 0x0000
def agentEng (g : Eng) : Nat := 0x1000 + encEng g
def agentUnknown : Nat := 0xF000

/-- Who did what ends a wait: a core's thread, an engine of a core, another package over the fabric (Table 9-10). -/
inductive Source where
  | core (d : Fin 4) (c : Fin 68)
  | engine (d : Fin 4) (c : Fin 68) (e : Eng)
  | fabric (pkg : Nat)
  deriving DecidableEq, Repr

/-- The agent as the record of a waiting core names it (Table 9-10): an engine of its own by its code, a core or Taproot core by its number, its
own too (R290: the core whose arrival completed the phase; DEDUCED, log 33). -/
def Source.agent (x : Source) (d : Fin 4) (c : Fin 68) : Nat :=
  let core (d' : Fin 4) (c' : Fin 68) : Nat := if isTaproot c' then 0x3000 + 4 * d'.val + (c'.val - 64) else 0x2000 + 64 * d'.val + c'.val
  match x with
  | .core d' c' => core d' c'
  | .engine d' c' e => if d' = d ∧ c' = c then agentEng e else core d' c'
  | .fabric p => 0x5000 + p

/-- Whether what a wait waits for has come (08_core_memory.md R223; 04_control_scalar.md R126; R290; 13_scheduling.md R350). -/
def State.endsMet (s : State) (d : Fin 4) (k : Core) (u : Until) : Bool :=
  match u with
  | .pushed h n => let g := k.rings[h]; decide ((g.t - g.h).toNat ≥ n)
  | .room h n => let g := k.rings[h]; decide ((g.a - g.h).toNat + n ≤ g.nslot)
  | .committed h n => let g := k.rings[h]; decide ((g.t - g.c).toNat ≥ n)
  | .full w => k.full.contains w
  | .empty w => !k.full.contains w
  | .atLeast w v => k.full.contains w && decide (readLE k.spad (4 * w) 4 ≥ v)
  | .phase pa => barPasses (readLE (s.memFor d) pa 8)
  | .zero pa => readLE (s.memFor d) pa 8 == 0

/-- Something has happened that may end the wait of a core: the record of the wait names who ended it (09_core_traps.md R277, Table 9-10). -/
def State.noteCore (s : State) (src : Source) (d : Fin 4) (c : Fin 68) : State :=
  let k := s.core d c
  match k.waitc with
  | none => s
  | some w =>
    match w.ends with
    | none => s
    | some u =>
      let agent := if !s.endsMet d k u then agentUnknown else if w.agent = agentUnknown then src.agent d c else w.agent
      if agent = w.agent then s else s.setCore d c { k with waitc := some { w with agent := agent } }

/-- Whether a core waits for a word at its home. -/
def Core.waitsFor (k : Core) (pa : Nat) : Bool :=
  match k.waitc with
  | some w => w.ends == some (.phase pa) || w.ends == some (.zero pa)
  | none => false

/-- A step on a word may end the waits of every core of the package (Table 9-10). -/
def State.noteWord (s : State) (src : Source) (at0 : Nat) : State :=
  let pa := at0 / 8 * 8
  (List.finRange 4).foldl (fun s d =>
    if (s.die d).cores.toList.any fun k => k.waitsFor pa then
      (List.finRange 68).foldl (fun s c => if (s.core d c).waitsFor pa then s.noteCore src d c else s) s
    else s) s

/-- The word at its home that a core waits for. -/
def Core.waitWord (k : Core) : Option Nat :=
  match k.waitc.bind (·.ends) with
  | some (.phase pa) => some pa
  | some (.zero pa) => some pa
  | _ => none

/-- What `src` has brought to the homes since `before` may end waits for the words of `which` that it changed (Table 9-10; 13_scheduling.md
R350). -/
def State.noteHome (s before : State) (src : Source) (which : Nat → Bool) : State :=
  (List.finRange 4).foldl (fun s d =>
    if (s.die d).cores.toList.any fun k => k.waitWord.any which then
      (List.finRange 68).foldl (fun s c =>
        match (s.core d c).waitWord with
        | some pa => if !which pa || readLE (before.memFor d) pa 8 == readLE (s.memFor d) pa 8 then s else s.noteCore src d c
        | none => s) s
    else s) s

/-- The bytes of one line that a core has written reach the home or its die's bridge stop. Where several cores have written the line since it
was last sent back, `writer` is none and the agent stays unknown (DESIGN CHOICE, log 33). -/
def State.noteLine (s before : State) (d : Fin 4) (writer : Option (Fin 68)) (a : Nat) : State :=
  match writer with
  | some c => s.noteHome before (.core d c) fun pa => pa / 64 == a / 64
  | none => s

end Sys2Proof.Machine
end

