-- ==== Sys2Proof/Machine/Home.lean ====
section
/-! DEFINITION. The homes of memory lines: which die and Heartwood slice owns an address, what a slice holds over memory, pinned lines, and the
queues of the bridge stops (00_scope.md R1, R9; 11_ordering.md R303; 12_die.md R322 to R326; 14_package.md R365, R375, R376). -/

namespace Sys2Proof.Machine

open Sys2Proof

/-- Dies of a form (Table 0-1). -/
def Form.dieCount : Form → Nat
  | .D => 1 | .P => 4 | .M => 4

/-- A number taken as a die, modulo four. -/
def dieOf (n : Nat) : Fin 4 := Fin.ofNat 4 n

/-- Whether the package holds die `d`: one that its form has, and that is populated (Table 0-1). -/
def State.hasDie (s : State) (d : Nat) : Bool := decide (d < s.cfg.dies) && decide (d < Form.dieCount s.cfg.form)

/-- A service of a die acts where the package holds the die (00_scope.md R1). -/
def State.onDie (s : State) (d : Fin 4) (f : State → State) : State := if s.hasDie d.val then f s else s

/-- The die that owns a memory address (R323); INTLV is one mode for the package. -/
def State.ownerDie (s : State) (pa : Nat) : Fin 4 :=
  if s.cfg.form = .D then 0
  else if (s.die 0).spread then dieOf ((bits pa 13 12) ^^^ (bits pa 23 22))
  else dieOf (bits pa 39 38)

/-- Bytes of a die's memory in the physical map: 247/256 of what it carries (R323, 14_package.md R375). -/
def State.mapped (s : State) : Nat := s.cfg.memPerDie / 256 * 247

/-- Whether a region-0 address below the fabric holds memory (R322, 14_package.md R375). -/
def State.hasMem (s : State) (pa : Nat) : Bool :=
  if (s.die 0).spread && s.cfg.form != .D then decide (pa < 4 * s.mapped)
  else s.hasDie (pa / 2 ^ 38) && decide (pa % 2 ^ 38 < s.mapped)

/-- The channel hash, home Heartwood slice and memory channel of an address (R323). -/
def State.channel (s : State) (pa : Nat) : Nat :=
  let h := (bits pa 11 8) ^^^ (bits pa 15 12) ^^^ (bits pa 19 16)
  if (s.cfg.dieCfg[s.ownerDie pa]).getLsbD 51 then 2 * (h % 8) else h

/-- The 64-byte line of an address. -/
def lineOf (pa : Nat) : Nat := pa / 64 * 64

def State.poisoned (s : State) (pa : Nat) : Bool := s.poison.contains (lineOf pa)

def dataMask (n : Nat) : Nat := 2 ^ n - 1

/-- The 64 bytes of a line at its home. -/
def State.homeLine (s : State) (a : Nat) : Nat := readLE s.mem a 64

/-- Fields of a pin range (Table 12-3). -/
def pinBase (v : W64) : Nat := bits v.toNat 45 21 * 2 ^ 21
def pinSize (v : W64) : Nat := (bits v.toNat 61 51 + 1) * 2 ^ 21
def pinCovers (v : W64) (a : Nat) : Bool := decide (pinBase v ≤ a) && decide (a < pinBase v + pinSize v)

/-- Whether an enabled pin range of a die covers a line. -/
def Die.pins (x : Die) (a : Nat) : Bool := x.hwpin.toList.any fun v => v.getLsbD 63 && pinCovers v a

/-- The Heartwood set of a line: its slice, and one of the slice's 16,384 sets (R323, R324). -/
def State.heartSet (s : State) (a : Nat) : Nat × Nat := (s.channel a / 4, Config.heartSet a % 16384)

/-- Whether a Heartwood slice holds bytes of a line that memory does not hold (R324; a line written with what memory holds counts as
written back: DEDUCED, log 23). -/
def State.heartDirty (s : State) (a : Nat) : Bool := s.homeLine a != readLE s.dram a 64

/-- A Heartwood slice writes a line back to memory (R324). -/
def State.heartBack (s : State) (a : Nat) : State :=
  { s with dram := writeLE s.dram a 64 (s.homeLine a)
           dramPoison := if s.poisoned a then insertNat a s.dramPoison else removeNat a s.dramPoison }

/-- The addresses at which two memories differ, highest first. -/
def memDiff (m n : Bytes) : List Nat :=
  let r := m.foldl (fun (r : List Nat × Bytes) x =>
    let l := ((r.2.takeWhile fun y => decide (y.1 < x.1)).map (·.1)).reverse ++ r.1
    match r.2.dropWhile fun y => decide (y.1 < x.1) with
    | y :: t => if y.1 = x.1 then (if y.2 = x.2 then l else x.1 :: l, t) else (x.1 :: l, y :: t)
    | [] => (x.1 :: l, [])) ([], n)
  (r.2.map (·.1)).reverse ++ r.1

/-- The lines that Heartwood slices hold dirty. -/
def State.dirtyLines (s : State) : List Nat :=
  (memDiff s.mem s.dram).foldl (fun l a => if l.head? = some (lineOf a) then l else lineOf a :: l) []

/-- Ways of a slice of a die: 16 of 16 MB, 12 of 12 MB (R324; HWMB of DIECFG). -/
def State.heartWays (s : State) (d : Fin 4) : Nat := 4 * bits (s.cfg.dieCfg[d]).toNat 55 52

/-- Lines beside `a` that a slice cannot drop: dirty or pinned. -/
def State.heartLines (s : State) (a : Nat) : List Nat :=
  let pinned := (s.die (s.ownerDie a)).pinned
  (pinned ++ s.dirtyLines.filter fun b => !pinned.contains b).filter fun b => b != a

/-- The line that makes room for `a`: where dirty and pinned lines take every way of its set, one that is not pinned (R324, R326). Which one is
open, as the index function and the replacement order are (DESIGN CHOICE, log 67: free). -/
def State.heartVictim (s : State) (a : Nat) : Option Nat :=
  let d := s.ownerDie a
  let same := (s.heartLines a).filter fun b => s.ownerDie b == d && s.heartSet b == s.heartSet a
  if same.length < s.heartWays d then none
  else
    let free := same.filter fun b => !((s.die d).pinned).contains b
    free[Config.victim s.fresh % free.length]?

/-- A line written back to memory, if there is one. -/
def State.heartOut (s : State) : Option Nat → State
  | some b => s.heartBack b
  | none => s

/-- Room for a line that becomes dirty in its set: the line that makes room is written back (R324). -/
def State.heartRoom (s : State) (a : Nat) : State :=
  if (s.heartLines a).length < s.heartWays (s.ownerDie a) then s
  else
    let u := s.heartOut (s.heartVictim a)
    { s with fresh := s.fresh + 1, dram := u.dram, dramPoison := u.dramPoison }

/-- A line of an enabled range is pinned in its set: a set holds 8 pinned lines, and one more evicts the least recently used of them, which is
written back, and counts it (R326). -/
def State.pinPlace (s : State) (d : Fin 4) (a : Nat) : State :=
  let x := s.die d
  if x.pinned.contains a then s.setDie d { x with pinned := removeNat a x.pinned ++ [a] }
  else
    let same := x.pinned.filter fun b => s.heartSet b == s.heartSet a
    match same with
    | old :: _ =>
      if same.length ≥ 8 then
        (s.setDie d { x with pinned := removeNat old x.pinned ++ [a], pinOvf := x.pinOvf + 1 }).heartBack old
      else s.setDie d { x with pinned := x.pinned ++ [a] }
    | [] => s.setDie d { x with pinned := x.pinned ++ [a] }

/-- A fill of one line into its slice, pinned while an enabled range of its die covers it. A pinned line keeps its way, so the fill makes room
in its set (R324, R326). -/
def State.pinFill (s : State) (d : Fin 4) (a : Nat) : State :=
  if (s.die d).pins a then (s.pinPlace d a).heartRoom a else s

/-- A line reaches its home for an access. A line of an enabled range is pinned if the access fills it; whether the slice still holds it, and
does not fill it, is open (R326; DESIGN CHOICE, log 67: free). -/
def State.touchHome (s : State) (a : Nat) : State :=
  let d := s.ownerDie a
  if !(s.die d).pins a then s
  else if (s.die d).pinned.contains a || !Config.heartHeld s.fresh then { s with fresh := s.fresh + 1 }.pinFill d a
  else { s with fresh := s.fresh + 1 }

/-- Writes the bytes of a line that `en` names at its home; a line overwritten in full is poisoned no more (R299). -/
def State.homePut (s : State) (a data en : Nat) : State :=
  if en = 0 then s
  else
    { (s.touchHome a).heartRoom a with
      mem := writeLE s.mem a 64 (mergeLanes 8 64 (s.homeLine a) data en)
      poison := if en = dataMask 64 then removeNat a s.poison else s.poison }

/-- A line becomes poisoned at its home (R299). -/
def State.poisonHome (s : State) (a : Nat) : State := { s with poison := insertNat a s.poison }

/-- A write of the bridge stop's queue of die `d` arrives at its home. -/
def State.landBridged (s : State) (d : Fin 4) (w : Bridged) : State :=
  let t := s.homePut w.line w.data.toNat w.en.toNat
  (if w.poison then t.poisonHome w.line else t).noteLine s d w.core w.line

/-- A line's bytes written back by die `d`: at its home if the die owns it, else into the bridge stop's queue towards its home, which is the
line's die-scope point for this die (11_ordering.md Table 11-1, R303; R324). `writer` is the one core that wrote them, where it is known. -/
def State.homeSend (s : State) (d : Fin 4) (a data en : Nat) (poison : Bool) (writer : Option (Fin 68)) : State :=
  let w : Bridged := ⟨a, BitVec.ofNat 64 en, BitVec.ofNat 512 data, poison, writer⟩
  if en = 0 then s
  else if s.ownerDie a = d then s.landBridged d w
  else (s.modDie d fun x => { x with bridge := x.bridge ++ [w] }).noteLine s d writer a

/-- The queued writes of die `d` to a line go on before a request of that die for the line (R324). -/
def State.bridgePass (s : State) (d : Fin 4) (a : Nat) : State :=
  if (s.die d).bridge.isEmpty then s
  else
    let l := (s.die d).bridge.filter fun w => w.line == a
    l.foldl (fun s w => s.landBridged d w) (s.modDie d fun x => { x with bridge := x.bridge.filter fun w => w.line != a })

/-- Every queued write of die `d` arrives at its home: what is performed at package scope or wider goes through (Table 11-1). -/
def State.bridgeDrain (s : State) (d : Fin 4) : State :=
  if (s.die d).bridge.isEmpty then s
  else (s.die d).bridge.foldl (fun s w => s.landBridged d w) (s.modDie d fun x => { x with bridge := [] })

/-- The oldest queued write of die `d` goes on. -/
def State.bridgeStep (s : State) (d : Fin 4) : State :=
  match (s.die d).bridge with
  | [] => s
  | w :: l => (s.modDie d fun x => { x with bridge := l }).landBridged d w

/-- Whether a line is poisoned for the agents of die `d` at its home, behind their own queued writes of it (R299, R324). -/
def State.poisonedFor (s : State) (d : Fin 4) (pa : Nat) : Bool :=
  ((s.die d).bridge.filter fun w => w.line == lineOf pa).foldl
    (fun b w => w.poison || (b && w.en != BitVec.allOnes 64)) (s.poisoned pa)

/-- The channel of its die that serves an address counts one corrected error (14_package.md R376). -/
def State.countCorrected (s : State) (a : Nat) : State :=
  s.modDie (s.ownerDie a) fun x =>
    let n := s.channel a
    { x with ceCnt := x.ceCnt.setIfInBounds n ((x.ceCnt.getD n 0 + 1) &&& 0xFFFFFFFF) }

end Sys2Proof.Machine
end

