-- ==== Sys2Proof/Machine/Translate.lean ====
section
/-! DEFINITION. Physical addresses, access tables, page-table walks and the translations a core holds (12_die.md R322, R323, R327 to
R331, R336 to R339; 15_fabric.md R405 to R409; 14_package.md R365). -/

namespace Sys2Proof.Machine

open Sys2Proof

/-- Kinds of access as ATLOG.KIND numbers them (12_die.md Table 12-7). -/
inductive AccKind where
  | read | write | atomic | fetch
  deriving DecidableEq, Repr

def AccKind.code : AccKind → Nat
  | .read => 0 | .write => 1 | .atomic => 2 | .fetch => 3

def AccKind.isWrite : AccKind → Bool
  | .read => false | .write => true | .atomic => true | .fetch => false

/-- A refusal to be logged (R339): the die whose ATLOG takes it, the kind, the master number and the address. -/
structure Refused where
  die : Fin 4
  kind : AccKind
  master : Nat
  pa : Nat
  deriving DecidableEq, Repr

/-- Why an access cannot be made: a reason of R329; an access-table refusal; for a walker, a table of another package that is refused there,
with the refusal to log where this package is the target, or that no route reaches (15_fabric.md R408); a fabric address and no link from the
die to the Hub (14_package.md R365); a walk that served several misses and was refused at a physical address, with its refusal logged once
(R331, R339); or its translation has not come yet (R331). -/
inductive XErr where
  | reason (status : Nat)
  | refused (r : Refused)
  | fabRefused (refs : List Refused)
  | fabNoRoute
  | fabUnlinked
  | logged (pa : Nat)
  | late
  deriving DecidableEq, Repr

/-- Where an access is served (Table 12-2): memory of this package, a fabric address, the PCIe window, a register block. -/
inductive Place where
  | mem | fabric | pcie | reg
  deriving DecidableEq, Repr

/-- Master number of a local number (R337). -/
def masterOf (d : Fin 4) (localNo : Nat) : Nat := 256 * d.val + localNo

def State.fabricOn (s : State) : Bool := s.hub.fabCfg.getLsbD 4

def State.pkgId (s : State) : Nat := bits s.hub.fabCfg.toNat 3 0

/-- A region-0 address whose bits [43:40] are nonzero is a fabric address while FABCFG.EN is 1 (15_fabric.md R405). -/
def State.isFabric (s : State) (pa : Nat) : Bool := s.fabricOn && bits pa 45 44 == 0 && bits pa 43 40 != 0

def fabPkg (pa : Nat) : Nat := bits pa 43 40 - 1

/-- A port carries traffic while it is enabled and up (Table 15-4). -/
def State.portUp (s : State) (p : Nat) : Bool := let w := s.hub.fabPort.getD p 0; w.getLsbD 0 && w.getLsbD 1

/-- The port that a ROUTE word sends traffic to: the primary port while it is up, else a valid alternate that is up (15_fabric.md R416,
R418). -/
def State.portOf (s : State) (w : Nat) : Option Nat :=
  if !w.testBit 7 then none
  else if s.portUp (bits w 2 0) then some (bits w 2 0)
  else if w.testBit 15 && s.portUp (bits w 10 8) then some (bits w 10 8)
  else none

/-- ROUTE of a package. -/
def State.routeWord (s : State) (pkg : Nat) : Nat := (s.hub.route.getD pkg 0).toNat

/-- Whether a package can be reached: its own switch, or by its ROUTE (15_fabric.md R405, R416, R418). -/
def State.routeTo (s : State) (pkg : Nat) : Bool := pkg == s.pkgId || (s.portOf (s.routeWord pkg)).isSome

def State.linkUp (s : State) (l : Link) : Bool := !s.hub.linksDown.contains l

def State.dieLink (s : State) (a b : Nat) : Bool := s.linkUp (.dies (dieOf a) (dieOf b)) && s.linkUp (.dies (dieOf b) (dieOf a))

/-- Whether die `a` still has a route to die `b`: direct, through a third die, or through the Hub (14_package.md R365). -/
def State.dieRoute (s : State) (a b : Nat) : Bool :=
  a == b || s.dieLink a b || ((List.range 4).any fun e => e != a && e != b && s.hasDie e && s.dieLink a e && s.dieLink e b) ||
    (s.linkUp (.hub (dieOf a)) && s.linkUp (.hub (dieOf b)))

/-- Whether die `a` still has a route to the Hub (14_package.md R365). -/
def State.hubRoute (s : State) (a : Nat) : Bool :=
  s.linkUp (.hub (dieOf a)) || ((List.range 4).any fun e => e != a && s.hasDie e && s.dieLink a e && s.linkUp (.hub (dieOf e)))

/-- The domain a die's ATDOM gives a master (R337). -/
def Die.domainOf (x : Die) (master : Nat) : Nat :=
  let w := (x.atDom.getD (master / 16) 0).toNat
  bits w (4 * (master % 16) + 3) (4 * (master % 16))

/-- Whether an enabled region entry contains an address (Table 12-9). -/
def regContains (e : W64 × W64) (pa : Nat) : Bool :=
  e.2.getLsbD 0 && decide (bits e.1.toNat 24 0 ≤ pa / 2 ^ 21) && decide (pa / 2 ^ 21 ≤ bits e.1.toNat 63 39)

/-- The lowest-numbered enabled entry that contains the address governs; with none, ATDEF does (R338). -/
def Die.permits (x : Die) (master pa : Nat) (write : Bool) : Bool :=
  let dom := x.domainOf master
  match x.atReg.toList.find? fun e => regContains e pa with
  | some e => if write then e.2.getLsbD (48 + dom) else e.2.getLsbD (32 + dom)
  | none => if write then x.atDef.getLsbD (16 + dom) else x.atDef.getLsbD dom

/-- The die whose address block or Hub block an address of region 3 lies in: dies 0 to 3, the Hub is 4. -/
def regBlock (pa : Nat) : Nat := bits pa 43 32

/-- Region 3 admits Taproot supervisor code, the security processor and the debug port, with aligned accesses of 8 bytes, to blocks the
package holds (R336). -/
def State.admitReg (s : State) (localNo : Nat) (sup : Bool) (kind : AccKind) (pa len : Nat) : Bool :=
  ((decide (64 ≤ localNo) && decide (localNo ≤ 67) && sup) || localNo == 69 || localNo == 82) &&
    (kind == .read || kind == .write) && len == 8 && pa % 8 == 0 &&
    (s.hasDie (regBlock pa) || (regBlock pa == 4 && s.cfg.form != .D))

/-- An inbound fabric access at this package is checked as master 81 of the target die (15_fabric.md R408). -/
def State.inboundOk (s : State) (pa : Nat) (write : Bool) : Bool :=
  let a := pa % 2 ^ 40
  s.hasMem a && (s.die (s.ownerDie a)).permits (masterOf (s.ownerDie a) 81) a write

/-- Whether die `d` still has a route to a register block of region 3 (14_package.md R365). -/
def State.regRoute (s : State) (d : Fin 4) (pa : Nat) : Bool :=
  if regBlock pa = 4 then s.hubRoute d.val else s.dieRoute d.val (regBlock pa)

/-- Checks a physical access (R322, R336, R338; 14_package.md R365, R366); the debug port and the security processor reach no fabric address
(15_fabric.md R406). The refusal is logged on the die whose tables refuse it, or on
the issuing die where no die's tables govern (DEDUCED, log 9). -/
def State.checkPhys (s : State) (d : Fin 4) (localNo : Nat) (sup : Bool) (kind : AccKind) (pa len : Nat) : Except XErr Place :=
  let no (x : Fin 4) : Except XErr Place := .error (.refused ⟨x, kind, masterOf d localNo, pa⟩)
  match bits pa 45 44 with
  | 0 =>
    if bits pa 43 40 ≠ 0 then (if !s.fabricOn || localNo == 69 || localNo == 82 then no d else if s.hubRoute d.val then .ok .fabric else .error .fabUnlinked)
    else if !s.hasMem pa then no d
    else
      let t := s.ownerDie pa
      if !(s.die t).permits (masterOf d localNo) pa kind.isWrite then no t
      else if !s.dieRoute d.val t.val then .error (.reason 0x09)
      else .ok .mem
  | 2 =>
    if !(s.die d).permits (masterOf d localNo) pa kind.isWrite || (s.cfg.form == .D && !Config.hostServes pa) then no d
    else if !s.hubRoute d.val then .error (.reason 0x09)
    else .ok .pcie
  | 3 => if !s.admitReg localNo sup kind pa len then no d else if s.regRoute d pa then .ok .reg else .error (.reason 0x09)
  | _ => no d

/-- Logs one refusal: ATLOG takes the first while VALID is 0, ATCNT counts every one (R339). -/
def State.logRefused (s : State) (r : Refused) : State :=
  s.modDie r.die fun x =>
    let x := { x with atCnt := if x.atCnt = BitVec.allOnes 32 then x.atCnt else x.atCnt + 1 }
    if x.atLog.getLsbD 63 then x
    else { x with atLog := BitVec.ofNat 64 (2 ^ 63 + r.kind.code * 2 ^ 60 + r.master * 2 ^ 50 + r.pa % 2 ^ 46) }

/-- Fields of a reduction window register (15_fabric.md Table 15-1), given as its low and its high word. -/
def winEn (w : W64 × W64) : Bool := w.2.getLsbD 63
def winHome (w : W64 × W64) : Nat := bits w.2.toNat 59 56
def winExpect (w : W64 × W64) : Nat := bits w.2.toNat 55 48
def winType (w : W64 × W64) : Nat := bits w.2.toNat 47 46
def winMax (w : W64 × W64) : Bool := w.2.getLsbD 45
def winCombine (w : W64 × W64) : Bool := w.2.getLsbD 44
def winNotify (w : W64 × W64) : Nat := 8 * bits (w.1.toNat + 2 ^ 64 * w.2.toNat) 103 67
def winBase (w : W64 × W64) : Nat := 2 ^ 16 * bits w.1.toNat 39 16
def winBytes (w : W64 × W64) : Nat := 2 ^ 16 * (bits w.1.toNat 1 0 + 1)

/-- The enabled window a fabric address lies in (15_fabric.md R411). -/
def State.windowOf (s : State) (pa : Nat) : Option (Fin 16) :=
  (List.finRange 16).find? fun i =>
    let w := s.hub.fabRed[i]
    winEn w && winHome w == fabPkg pa && decide (winBase w ≤ pa % 2 ^ 40) && decide (pa % 2 ^ 40 < winBase w + winBytes w)

/-- `n` bytes at a fabric address: this package's memory, or another package's (15_fabric.md R405). -/
def State.readFabric (s : State) (pa n : Nat) : Nat × State :=
  if fabPkg pa = s.pkgId then (readLE s.mem (pa % 2 ^ 40) n, s.touchHome (lineOf (pa % 2 ^ 40))) else (readLE s.fabMem pa n, s)

def State.writeFabric (s : State) (pa n v : Nat) : State :=
  if fabPkg pa = s.pkgId then
    let i := pa % 64
    s.homePut (lineOf (pa % 2 ^ 40)) (v % 2 ^ (8 * n) * 2 ^ (8 * i)) (dataMask n * 2 ^ i)
  else { s with fabMem := writeLE s.fabMem pa n v }

/-- `n` bytes that a device outside answers: free values (14_package.md R378). -/
def freeBytes (fresh : Nat) : Nat → Nat
  | 0 => 0
  | n + 1 => (Config.deviceByte fresh).toNat + 256 * freeBytes (fresh + 1) n

/-- Fields of a page-table entry (Table 12-4). -/
def pteV (e : Nat) : Bool := e.testBit 0
def pteLeaf (e : Nat) : Bool := e.testBit 1
def pteR (e : Nat) : Bool := e.testBit 2
def pteW (e : Nat) : Bool := e.testBit 3
def pteX (e : Nat) : Bool := e.testBit 4
def pteSup (e : Nat) : Bool := e.testBit 5
def pteCw (e : Nat) : Bool := e.testBit 6
def pteCz (e : Nat) : Bool := e.testBit 7
def pteA (e : Nat) : Bool := e.testBit 8
def pteD (e : Nat) : Bool := e.testBit 9
def ptePa (e : Nat) : Nat := bits e 45 12 * 4096
def ptePs64 (e : Nat) : Bool := e.testBit 58

/-- Malformed entries with V = 1 (R328). -/
def pteMalformed (level e : Nat) : Bool :=
  bits e 63 59 != 0 || (pteLeaf e && level == 1) || (!pteLeaf e && level == 4) ||
  (!pteLeaf e && (bits e 11 2 != 0 || ptePs64 e)) ||
  (pteLeaf e && level == 3 && bits e 20 12 != 0) || (pteLeaf e && level == 2 && bits e 29 12 != 0) ||
  (ptePs64 e && level != 4) || (pteCw e && (pteW e || pteX e))

/-- A leaf found by a walk: the entry with its address, and the size of its page in bits (R327). -/
structure Leaf where
  addr : Nat
  entry : Nat
  size : Nat
  deriving DecidableEq, Repr

/-- The refusal of an inbound access at its target (15_fabric.md R408). -/
def State.inboundRefusal (s : State) (pa : Nat) (kind : AccKind) : Refused :=
  let a := pa % 2 ^ 40
  ⟨s.ownerDie a, kind, masterOf (s.ownerDie a) 81, a⟩

/-- How the target of a fabric access answers (15_fabric.md R405, R408): another package's tables and memory are outside (free values),
this package's own are here. -/
inductive FabAnswer where
  | ok
  | noRoute
  | refused (refs : List Refused)
  | bad
  deriving DecidableEq, Repr

/-- A write that its target refuses, or that no route reaches, is dropped. -/
def FabAnswer.drops : FabAnswer → Bool
  | .ok => false
  | .noRoute => true
  | .refused _ => true
  | .bad => false

def State.fabAnswer (s : State) (pa : Nat) (kind : AccKind) : FabAnswer :=
  if !s.routeTo (fabPkg pa) then .noRoute
  else if fabPkg pa = s.pkgId then
    (if !s.hubRoute (s.ownerDie (pa % 2 ^ 40)).val then .noRoute else if !s.inboundOk pa kind.isWrite then .refused [s.inboundRefusal pa kind]
     else if s.poisoned (pa % 2 ^ 40) && kind != .write then .bad else .ok)
  else if Config.remoteRefuses s.fresh pa then .refused []
  else if Config.remoteBad s.fresh pa && kind != .write then .bad
  else .ok

/-- A walker that no link leads to the Hub is answered as uncorrectable (14_package.md R365; 15_fabric.md R408). -/
def XErr.ofWalker : XErr → XErr
  | .fabUnlinked => .reason 0x09
  | e => e

/-- Reads one entry as a walker (master 68 of the core's die): its access tables, poison and routes apply (R330, R339; 15_fabric.md
R406, R408). -/
def State.readPte (s : State) (d : Fin 4) (a : Nat) : Except XErr Nat × State :=
  match s.checkPhys d 68 false .read a 8 with
  | .error e => (.error e.ofWalker, s)
  | .ok .mem =>
    let s := (s.bridgePass d (lineOf a)).touchHome (lineOf a)
    if s.poisoned a then (.error (.reason 0x09), s) else (.ok (readLE s.mem a 8), s)
  | .ok .fabric =>
    let x := s.fabAnswer a .read
    let s := { s with fresh := s.fresh + 1 }
    match x with
    | .noRoute => (.error .fabNoRoute, s)
    | .refused l => (.error (.fabRefused l), s)
    | .bad => (.error (.reason 0x09), s)
    | .ok => let r := s.readFabric a 8; (.ok r.1, r.2)
  | .ok _ => (.ok (freeBytes s.fresh 8), { s with fresh := s.fresh + 8 })

/-- The walk from a level-1 table (R327): `n` levels remain, level 5 - n is read. -/
def State.walkFrom (s : State) (d : Fin 4) (va : Nat) : Nat → Nat → Except XErr Leaf × State
  | 0, _ => (.error (.reason 0x0B), s)
  | n + 1, table =>
    let level := 4 - n
    let lo := 12 + 9 * n
    let a := table + 8 * bits va (lo + 8) lo
    match s.readPte d a with
    | (.error e, s) => (.error e, s)
    | (.ok e, s) =>
      if !pteV e then (.error (.reason 0x04), s)
      else if pteMalformed level e then (.error (.reason 0x0B), s)
      else if pteLeaf e then (.ok ⟨a, e, if ptePs64 e then 16 else lo⟩, s)
      else State.walkFrom s d va n (ptePa e)

/-- Sets A, and D for a write, in a leaf at its home, after the walker's own write passes the tables (R330; DEDUCED, log 10). -/
def State.markLeaf (s : State) (d : Fin 4) (l : Leaf) (write : Bool) : Except XErr State :=
  if pteA l.entry && (!write || pteD l.entry) then .ok s
  else
    let e := l.entry ||| 0x100 ||| (if write then 0x200 else 0)
    match s.checkPhys d 68 false .atomic l.addr 8 with
    | .error x => .error x.ofWalker
    | .ok .mem =>
      let i := l.addr % 64
      .ok ((s.bridgePass d (lineOf l.addr)).homePut (lineOf l.addr) (e * 2 ^ (8 * i)) (0xFF * 2 ^ i))
    | .ok .fabric =>
      match s.fabAnswer l.addr .write with
      | .noRoute => .error .fabNoRoute
      | .refused q => .error (.fabRefused q)
      | .bad => .error (.reason 0x09)
      | .ok => .ok (s.writeFabric l.addr 8 e)
    | .ok _ => .ok s

/-- Whether a leaf permits an access (Table 12-5; SUP leaves only Taproot supervisor code in). -/
def leafPermits (r w x u cw : Bool) (sup : Bool) (kind : AccKind) : Bool :=
  (u || sup) && r &&
    match kind with
    | .read => true
    | .fetch => x
    | .write => w && !cw
    | .atomic => w && !cw

/-- Who translates: die, core, address space, root of the level-1 table, whether translation is on, supervisor mode. -/
structure Who where
  d : Fin 4
  c : Fin 68
  asn : Nat
  root : Nat
  on : Bool
  sup : Bool
  deriving DecidableEq, Repr

/-- The translating thread of a core (13_scheduling.md R351; 14_package.md Table 14-4: TRROOT, SM). -/
def State.who (s : State) (d : Fin 4) (c : Fin 68) : Who :=
  let k := s.core d c
  if isTaproot c then
    ⟨d, c, bits k.tap.root.toNat 11 0, bits k.tap.root.toNat 45 12 * 4096, k.tap.root.getLsbD 63, k.tap.sm⟩
  else ⟨d, c, k.thr.asn, k.thr.root, true, false⟩

/-- The part of a translation that an access needs: physical address, CW, CZ. -/
structure Xlate where
  pa : Nat
  cw : Bool
  cz : Bool
  deriving DecidableEq, Repr

def TlbEntry.covers (e : TlbEntry) (asn va : Nat) : Bool := e.asn == asn && e.vpn == va / 2 ^ e.bits

/-- A virtual address as the tables see it: bits [47:0]. -/
def va48 (va : W64) : Nat := va.toNat % 2 ^ 48

/-- Bits [63:47] all equal (04_control_scalar.md R122). -/
def canonical (va : W64) : Bool := let t := va.toNat / 2 ^ 47; t == 0 || t == 2 ^ 17 - 1

/-- The miss of an access: its 4 KB page and address space (R331). -/
def Who.miss (w : Who) (kind : AccKind) (va : W64) : Miss := ⟨w.c, w.asn, va48 va / 2 ^ 12, kind.isWrite⟩

/-- Misses that one walk serves: those for one page of one address space (R331). -/
def Miss.merges (x y : Miss) : Bool := x.asn == y.asn && x.vpn == y.vpn

/-- A miss waits for its walk; misses of one core for one page are one, and a die that holds 1,024 takes no more (R331). -/
def Die.miss (x : Die) (m : Miss) : Die :=
  if x.misses.any (fun y => y.core == m.core && y.merges m) || decide (x.misses.length ≥ 1024) then x else { x with misses := x.misses ++ [m] }

/-- The miss served next: the oldest one of the next core, in turn, that has one (R331). -/
def Die.nextMiss (x : Die) : Option Miss :=
  let turn (m : Miss) : Nat := (m.core.val + 136 - x.lastWalk - 1) % 68
  x.misses.foldl (fun b m => match b with
    | none => some m
    | some y => if turn m < turn y then some m else some y) none

/-- A core takes a translation. What it replaces is remembered while accesses made under it may still be on their way (R332). -/
def Core.keepEntry (k : Core) (t : TlbEntry) : Core :=
  let same (x : TlbEntry) : Bool := x.asn == t.asn && x.vpn == t.vpn && x.bits == t.bits
  { k with tlb := t :: k.tlb.filter fun x => !same x
           tlbOld := (k.tlb.filter fun x => same x && x.ppn != t.ppn) ++ k.tlbOld }

/-- What a walk's leaf gives an access: the leaf marked and the translation kept (R330, R331). A translation that the access may not use is not
kept. -/
def State.useLeaf (s : State) (w : Who) (kind : AccKind) (v : Nat) (l : Leaf) : Except XErr Xlate × State :=
  let e := l.entry
  if !leafPermits (pteR e) (pteW e) (pteX e) (!pteSup e) (pteCw e) w.sup kind then (.error (.reason 0x05), s)
  else
    match s.markLeaf w.d l kind.isWrite with
    | .error x => (.error x, s)
    | .ok s =>
      let base := ptePa e / 2 ^ l.size * 2 ^ l.size
      let t : TlbEntry := ⟨w.asn, v / 2 ^ l.size, l.size, base / 2 ^ l.size, pteR e, pteW e, pteX e, !pteSup e, pteCw e, pteCz e,
        pteD e || kind.isWrite⟩
      (.ok ⟨base + v % 2 ^ l.size, pteCw e, pteCz e⟩, s.modCore w.d w.c fun k => k.keepEntry t)

/-- Walks for an access (R330, R331): what the access gets, and the leaf that the walk found or why it found none. -/
def State.walkLeaf (s : State) (w : Who) (kind : AccKind) (va : W64) : Except XErr Xlate × Except XErr Leaf × State :=
  let v := va48 va
  match s.walkFrom w.d v 4 w.root with
  | (.error e, s) => (.error e, .error e, s)
  | (.ok l, s) => let r := s.useLeaf w kind v l; (r.1, .ok l, r.2)

/-- A walk for one access. -/
def State.walkNow (s : State) (w : Who) (kind : AccKind) (va : W64) : Except XErr Xlate × State :=
  let r := s.walkLeaf w kind va
  (r.1, r.2.2)

/-- What a walk without a translation leaves for the misses that it serves, once its refusal is logged (R331, R339). -/
def XErr.answer : XErr → Option WalkFault
  | .refused r => some (.refused r.pa)
  | .logged pa => some (.refused pa)
  | .fabRefused _ => some .fabRefused
  | .reason n => some (.reason n)
  | .fabNoRoute => some .fabNoRoute
  | .fabUnlinked => some .fabUnlinked
  | .late => none

/-- The same, as the access that waits meets it. -/
def WalkFault.err : WalkFault → XErr
  | .refused pa => .logged pa
  | .fabRefused => .fabRefused []
  | .reason n => .reason n
  | .fabNoRoute => .fabNoRoute
  | .fabUnlinked => .fabUnlinked

/-- What a walk refused by the access tables logs (R339). -/
def XErr.log (x : XErr) (s : State) : State :=
  match x with
  | .refused r => s.logRefused r
  | .fabRefused l => l.foldl State.logRefused s
  | .reason _ => s
  | .fabNoRoute => s
  | .fabUnlinked => s
  | .logged _ => s
  | .late => s

/-- A miss is told how its walk ended. -/
def State.tellMiss (s : State) (d : Fin 4) (y : Miss) (write : Bool) (e : XErr) : State :=
  match e.answer with
  | none => s
  | some f => s.modCore d y.core fun k => { k with answers := k.answers ++ [⟨y.asn, y.vpn, write, f⟩] }

/-- The misses of other cores take the translation that one core now holds. -/
def State.shareEntry (s : State) (d : Fin 4) (c : Fin 68) (l : List Miss) : State :=
  match (s.core d c).tlb with
  | t :: _ => l.foldl (fun s y => if y.core = c then s else s.modCore d y.core fun k => k.keepEntry t) s
  | [] => s

/-- A leaf that one access may not use, as `e` says, is judged for each miss merged with it: the first that may use it takes the translation
for the rest as well (R329 to R331). -/
def State.serveLeaf (d : Fin 4) (leaf : Leaf) (e : XErr) : List Miss → State → State
  | [], s => s
  | y :: l, s =>
    match s.useLeaf (s.who d y.core) (if y.write then .write else .read) (y.vpn * 2 ^ 12) leaf with
    | (.ok _, s) => s.shareEntry d y.core l
    | (.error x, s) => State.serveLeaf d leaf e l ((if x = e then s else x.log s).tellMiss d y y.write x)

/-- A walk that has been made serves every miss merged with it (R331): the other cores take the translation that it found, or learn why it
found none. -/
def State.serve (s : State) (w : Who) (m : Miss) (r : Except XErr Xlate) (leaf : Except XErr Leaf) : State :=
  let l := (s.die w.d).misses.filter fun y => y.merges m
  if l.isEmpty then s
  else
    let s := s.modDie w.d fun x => { x with misses := x.misses.filter fun y => !y.merges m }
    match r, leaf with
    | .ok _, _ => s.shareEntry w.d w.c l
    | .error e, .ok f => State.serveLeaf w.d f e l s
    | .error e, .error _ => l.foldl (fun s y => s.tellMiss w.d y false e) s

/-- The walk for one waiting miss: what it finds is kept; a refusal is logged; why it finds nothing is kept for the accesses that wait (R330,
R331, R339). -/
def State.serveMiss (s : State) (d : Fin 4) (m : Miss) : State :=
  let s := s.modDie d fun x => { x with lastWalk := m.core.val }
  let w := s.who d m.core
  if (s.core d m.core).run = .idle ∨ !w.on ∨ w.asn ≠ m.asn then s.modDie d fun x => { x with misses := x.misses.filter fun y => y != m }
  else
    match s.walkLeaf w (if m.write then .write else .read) (BitVec.ofNat 64 (m.vpn * 2 ^ 12)) with
    | (.ok x, f, s) => s.serve w m (.ok x) f
    | (.error e, f, s) => (e.log s).serve w m (.error e) f

/-- Misses ahead of one are served in their order (R331). -/
def State.serveBefore (d : Fin 4) (m : Miss) : Nat → State → State
  | 0, s => s
  | n + 1, s =>
    match (s.die d).nextMiss with
    | none => s
    | some x => if x.merges m then s else State.serveBefore d m n (s.serveMiss d x)

/-- What a walk for this page has already told the core. -/
def Core.answer (k : Core) (m : Miss) : Option WalkAnswer :=
  k.answers.find? fun x => x.asn == m.asn && x.vpn == m.vpn && (m.write || !x.write)

/-- The walk of a miss: made already for a miss merged with it, made at once behind the misses ahead of it, or still to come where the answers
of this step are late (R331). -/
def State.walk (s : State) (w : Who) (kind : AccKind) (va : W64) : Except XErr Xlate × State :=
  let m := w.miss kind va
  match (s.core w.d w.c).answer m with
  | some x =>
    (.error x.fault.err, s.modCore w.d w.c fun k => { k with answers := k.answers.filter fun y => y != x })
  | none =>
    if s.late then (.error .late, s.modDie w.d fun x => x.miss m)
    else
      let s := State.serveBefore w.d m (s.die w.d).misses.length s
      let own (s : State) : State := s.modDie w.d fun x => { x with misses := x.misses.filter fun y => !(y.core == m.core && y.merges m) }
      let r := ((own s).modDie w.d fun x => { x with lastWalk := w.c.val }).walkLeaf w kind va
      (r.1, r.2.2.serve w m r.1 r.2.1)

/-- Translates one address for an access: from a translation the core holds, unless the access is the first write through it, else by a
walk (R330, R331). -/
def State.translate (s : State) (w : Who) (kind : AccKind) (va : W64) : Except XErr Xlate × State :=
  if !w.on then (.ok ⟨va.toNat % 2 ^ 46, false, false⟩, s)
  else
    match (s.core w.d w.c).tlb.find? fun e => e.covers w.asn (va48 va) with
    | some e =>
      if !leafPermits e.r e.w e.x e.u e.cw w.sup kind then (.error (.reason 0x05), s)
      else if kind.isWrite && !e.d then s.walk w kind va
      else (.ok ⟨e.ppn * 2 ^ e.bits + va48 va % 2 ^ e.bits, e.cw, e.cz⟩, s)
    | none => s.walk w kind va

/-- An access of `len` bytes in one page: translated, then checked physically (04_control_scalar.md Table 4-10, rows 3 and 4). -/
def State.locate (s : State) (w : Who) (kind : AccKind) (va : W64) (len : Nat) : Except XErr (Xlate × Place) × State :=
  match s.translate w kind va with
  | (.error e, s) => (.error e, s)
  | (.ok x, s) =>
    match s.checkPhys w.d w.c.val w.sup kind x.pa len with
    | .error e => (.error e, s)
    | .ok p => (.ok (x, p), s)

end Sys2Proof.Machine
end

