-- ==== Sys2Proof/Machine/Cache.lean ====
section
/-! DEFINITION. The levels a global access passes: home memory, L2 slices, L1 data caches (08_core_memory.md R228, R229; 10_cluster.md R279,
R280, R299; 11_ordering.md R303, R308, R312). Lines are kept uncompressed at every level (10_cluster.md R282 to R285: no reader sees
the compressed form, and the place of a form is not architected). -/

namespace Sys2Proof.Machine

open Sys2Proof

/-- Order of scopes, narrowest first (Table 11-1). -/
def scopeRank : Scope → Nat
  | .c => 0 | .k => 1 | .d => 2 | .p => 3 | .s => 4

/-- The lines that a list of bytes touches. -/
def linesOf (cells : Bytes) : List Nat := cells.foldr (fun x l => insertNat (lineOf x.1) l) []

/-- The data and byte enables that a list of bytes, the last one kept, gives one line. -/
def lineData (cells : Bytes) (a : Nat) : Nat × Nat :=
  let m := writeCells [] (cells.filter fun x => lineOf x.1 == a)
  (readLE m a 64, (List.range 64).foldl (fun e i => if cells.any (fun x => x.1 == a + i) then e + 2 ^ i else e) 0)

/-- Whether a line read again from its home is poisoned, under what is dirty in a slice's copy of it (R299; 11_ordering.md R312). -/
def L2Line.badOver (l : L2Line) (home : Bool) : Bool := (l.poison && l.dirty != 0) || (home && l.dirty != BitVec.allOnes 64)

def L2Slice.find (x : L2Slice) (a : Nat) : Option L2Line := x.lines.find? fun l => l.addr == a

def L2Slice.put (x : L2Slice) (l : L2Line) : L2Slice := { x with lines := l :: x.lines.filter fun y => y.addr != l.addr }

def L2Slice.drop (x : L2Slice) (a : Nat) : L2Slice := { x with lines := x.lines.filter fun y => y.addr != a }

def State.slice (s : State) (d : Fin 4) (k : Nat) : L2Slice := (s.die d).l2.getD k .empty

def State.setSlice (s : State) (d : Fin 4) (k : Nat) (x : L2Slice) : State :=
  s.modDie d fun y => { y with l2 := y.l2.setIfInBounds k x }

/-- The one core that has written into a slice's line since it was last sent on. -/
def L2Line.writer (l : L2Line) : Option (Fin 68) :=
  match l.cores with
  | [c] => some (Fin.ofNat 68 c)
  | _ => none

/-- A slice sends one line's dirty bytes towards its home and keeps the line clean; a poisoned line goes back poisoned, and stays so in the
slice (R280, R299; 11_ordering.md R303). -/
def State.sliceFlush (s : State) (d : Fin 4) (k : Nat) (a : Nat) : State :=
  match (s.slice d k).find a with
  | none => s
  | some l =>
    let s := s.homeSend d a l.data.toNat l.dirty.toNat l.poison l.writer
    s.setSlice d k ((s.slice d k).put { l with dirty := 0, cores := [] })

/-- Sends back and drops a slice's copy of a line. -/
def State.sliceEvict (s : State) (d : Fin 4) (k : Nat) (a : Nat) : State :=
  let s := s.sliceFlush d k a
  s.setSlice d k ((s.slice d k).drop a)

/-- Ways of a cluster's slice that hold lines: DIECFG2.L2WAYS gives them, and a failed way holds none (R279, R301; 12_die.md Table 12-7). -/
def State.sliceWays (s : State) (d : Fin 4) (k : Nat) : Nat :=
  16 - 4 * bits (s.cfg.dieCfg2[d]).toNat (2 * k + 1) (2 * k) - (s.slice d k).failed.length

/-- A line enters a slice; a set of which every way holds a line gives one of them back first, which is open (R279; DESIGN CHOICE, log 68:
free). -/
def State.sliceInsert (s : State) (d : Fin 4) (k : Nat) (l : L2Line) : State :=
  let ways := s.sliceWays d k
  let x := (s.slice d k).lines
  if decide (x.length < ways) || x.any (fun y => y.addr == l.addr) then s.setSlice d k ((s.slice d k).put l)
  else
    let same := x.filter fun y => Config.l2Set y.addr % 4096 == Config.l2Set l.addr % 4096
    if same.length < ways then s.setSlice d k ((s.slice d k).put l)
    else
      match same[Config.victim s.fresh % same.length]? with
      | some v => let s := { s with fresh := s.fresh + 1 }.sliceEvict d k v.addr; s.setSlice d k ((s.slice d k).put l)
      | none => s.homeSend d l.addr l.data.toNat l.dirty.toNat l.poison l.writer

/-- A core reads a line through its slice. A line that an acquire made absent for this core is fetched from its home again, and its dirty
bytes stay (R312). A Taproot core has no slice and reads the home. -/
def State.readLine (s : State) (d : Fin 4) (c : Fin 68) (a : Nat) : Nat × State :=
  let k := clusterOf c
  if isTaproot c then let s := (s.bridgePass d a).touchHome a; (s.homeLine a, s)
  else
    match (s.slice d k).find a with
    | some l =>
      if l.stale.contains c.val then
        let s := (s.bridgePass d a).touchHome a
        let v := mergeLanes 8 64 (s.homeLine a) l.data.toNat l.dirty.toNat
        (v, s.setSlice d k ((s.slice d k).put
          { l with data := BitVec.ofNat 512 v, stale := removeNat c.val l.stale, poison := l.badOver (s.poisoned a) }))
      else (l.data.toNat, s)
    | none =>
      let s := (s.bridgePass d a).touchHome a
      let v := s.homeLine a
      (v, s.sliceInsert d k ⟨a, BitVec.ofNat 512 v, 0, [], [], s.poisoned a⟩)

/-- Whether a core that reads a line below its L1 meets poison. -/
def State.slicePoison (s : State) (d : Fin 4) (c : Fin 68) (a : Nat) : Bool :=
  if isTaproot c then s.poisonedFor d a
  else
    match (s.slice d (clusterOf c)).find a with
    | some l => if l.stale.contains c.val then l.badOver (s.poisonedFor d a) else l.poison
    | none => s.poisonedFor d a

/-- Whether a core that reads a line meets poison: its own L1 copy is sound, then the slice's copy counts, then the home (R300). -/
def State.meetsPoison (s : State) (d : Fin 4) (c : Fin 68) (pa : Nat) : Bool :=
  match (s.core d c).l1.find? fun l => l.addr == lineOf pa && l.valid.getLsbD (pa % 64 / 32) with
  | some l => l.poison
  | none => s.slicePoison d c (lineOf pa)

/-- Bytes that an L1 writes back to its slice; only the enabled bytes are merged, and the slice records the core (R312). -/
def State.intoSlice (s : State) (d : Fin 4) (c : Fin 68) (a data en : Nat) : State :=
  if isTaproot c then s.homeSend d a data en false (some c)
  else
    let k := clusterOf c
    let r := match (s.slice d k).find a with
      | some l => (l, s)
      | none =>
        let s := (s.bridgePass d a).touchHome a
        (⟨a, BitVec.ofNat 512 (s.homeLine a), 0, [], [], s.poisoned a⟩, s)
    let l := r.1
    r.2.sliceInsert d k
      { l with data := BitVec.ofNat 512 (mergeLanes 8 64 l.data.toNat data en), dirty := l.dirty ||| BitVec.ofNat 64 en,
               cores := insertNat c.val l.cores, poison := l.poison && en != dataMask 64 }

/-- Bytes that pass through the slice to the home: the slice's copy takes them, and they are no longer dirty there (R312). Where they do not cover a
line that the slice holds dirty and poisoned, the line reaches its home poisoned (R299). -/
def State.throughSlice (s : State) (d : Fin 4) (c : Fin 68) (a data en : Nat) : State :=
  if isTaproot c then s.homeSend d a data en false (some c)
  else
    let k := clusterOf c
    match (s.slice d k).find a with
    | none => s.homeSend d a data en false (some c)
    | some l =>
      let s := s.homeSend d a data en (l.poison && l.dirty != 0 && en != dataMask 64) (some c)
      s.setSlice d k ((s.slice d k).put
        { l with data := BitVec.ofNat 512 (mergeLanes 8 64 l.data.toNat data en), dirty := l.dirty &&& ~~~ (BitVec.ofNat 64 en),
                 poison := l.poison && en != dataMask 64 })

/-- Writes a line's dirty bytes to the level that serves a scope: the slice for `.k`, the home for `.d` and wider (R312). -/
def State.writeBack (s : State) (d : Fin 4) (c : Fin 68) (sc : Scope) (a data en : Nat) : State :=
  if en = 0 then s
  else if scopeRank sc ≤ 1 then s.intoSlice d c a data en
  else s.throughSlice d c a data en

/-- Marks a line poisoned at every level down to the one that serves a scope (R299). -/
def State.markPoison (s : State) (d : Fin 4) (c : Fin 68) (sc : Scope) (a : Nat) : State :=
  let s := if isTaproot c then s else match (s.slice d (clusterOf c)).find a with
    | some l => s.setSlice d (clusterOf c) ((s.slice d (clusterOf c)).put { l with poison := true })
    | none => s
  if scopeRank sc ≤ 1 && !isTaproot c then s
  else if s.ownerDie a = d then s.poisonHome a
  else s.modDie d fun x => { x with bridge := x.bridge.map fun w => if w.line == a then { w with poison := true } else w }

/-- Writes back one L1 line; a poisoned line goes back poisoned (R299). -/
def State.writeBackLine (s : State) (d : Fin 4) (c : Fin 68) (sc : Scope) (l : L1Line) : State :=
  let s' := s.writeBack d c sc l.addr l.data.toNat l.dirty.toNat
  if l.poison && l.dirty != 0 then s'.markPoison d c sc l.addr else s'

def Core.l1Find (k : Core) (a : Nat) : Option L1Line := k.l1.find? fun l => l.addr == a

def Core.l1Put (k : Core) (l : L1Line) : Core := { k with l1 := l :: k.l1.filter fun y => y.addr != l.addr }

def Core.l1Drop (k : Core) (a : Nat) : Core := { k with l1 := k.l1.filter fun y => y.addr != a }

/-- A line enters an L1; a set of four lines gives one of them back to the slice first, which is open (R228; DESIGN CHOICE, log 68: free). -/
def State.l1Insert (s : State) (d : Fin 4) (c : Fin 68) (l : L1Line) : State :=
  let x := (s.core d c).l1
  if decide (x.length < 4) || x.any (fun y => y.addr == l.addr) then s.modCore d c fun k => k.l1Put l
  else
    let same := x.filter fun y => Config.l1Set y.addr % 256 == Config.l1Set l.addr % 256
    if same.length < 4 then s.modCore d c fun k => k.l1Put l
    else
      match same[Config.victim s.fresh % same.length]? with
      | some v => ({ s with fresh := s.fresh + 1 }.writeBackLine d c .k v).modCore d c fun k => (k.l1Drop v.addr).l1Put l
      | none => s

/-- The covered lines of a release at a scope (R312): dirty lines of the L1 whose tag is narrower, then, at `.d` and wider, the slice's lines
recorded for this core. -/
def State.releaseLines (s : State) (d : Fin 4) (c : Fin 68) (sc : Scope) : State :=
  if sc = .c then s
  else
    let s := (s.core d c).l1.foldl (fun s l => if scopeRank l.tag < scopeRank sc then s.writeBackLine d c sc l else s) s
    let clean (l : L1Line) : L1Line := if scopeRank l.tag < scopeRank sc then { l with dirty := 0, tag := sc } else l
    let s := s.modCore d c fun k => { k with l1 := k.l1.map clean }
    let s := if scopeRank sc < 2 || isTaproot c then s
      else ((s.slice d (clusterOf c)).lines.filter fun l => l.cores.contains c.val).foldl (fun s l => s.sliceFlush d (clusterOf c) l.addr) s
    if scopeRank sc ≥ 3 then s.bridgeDrain d else s

/-- At `.d` and wider, every line that the cluster's slice holds counts as absent for this core's next read of it (R312). -/
def State.staleSlice (s : State) (d : Fin 4) (c : Fin 68) (sc : Scope) : State :=
  if scopeRank sc < 2 || isTaproot c then s
  else
    let x := s.slice d (clusterOf c)
    s.setSlice d (clusterOf c) { x with lines := x.lines.map fun l => { l with stale := insertNat c.val l.stale } }

/-- What an acquire does to the caches (R312): nothing at `.c`; else a release of dirty lines, every line but those of CW pages
invalidated, and at `.d` and wider the slice's lines absent for this core's next read. -/
def State.acquireLines (s : State) (d : Fin 4) (c : Fin 68) (sc : Scope) : State :=
  if sc = .c then s
  else
    let s := s.releaseLines d c sc
    (s.modCore d c fun k => { k with l1 := k.l1.filter fun l => l.cw }).staleSlice d c sc

/-- Whether an acquiring load at a scope meets poison: in what its acquire leaves it to read (R300; 11_ordering.md R312). -/
def State.acquirePoison (s : State) (d : Fin 4) (c : Fin 68) (sc : Scope) (pa : Nat) : Bool := (s.acquireLines d c sc).meetsPoison d c pa

/-- L1FL and L1INV (04_control_scalar.md R131): every dirty line goes to the level of the scope and stays clean; L1INV also drops all, and is
an acquire (11_ordering.md R309, R312). -/
def State.l1Maintain (s : State) (d : Fin 4) (c : Fin 68) (sc : Scope) (inv : Bool) : State :=
  if sc = .c then s
  else
    let s := (s.core d c).l1.foldl (fun s l => s.writeBackLine d c sc l) s
    let s := s.modCore d c fun k => { k with l1 := k.l1.map fun l => { l with dirty := 0 } }
    let s := s.releaseLines d c sc
    if inv then (s.modCore d c fun k => { k with l1 := [] }).staleSlice d c sc else s

/-- L1FLL and L1INVL (R132): one line goes to its home, and is dropped. -/
def State.l1Line (s : State) (d : Fin 4) (c : Fin 68) (a : Nat) (inv : Bool) : State :=
  match (s.core d c).l1Find a with
  | none => s
  | some l =>
    let s := s.writeBackLine d c .d l
    s.modCore d c fun k => if inv then k.l1Drop a else k.l1Put { l with dirty := 0 }

/-- The line of an address in the L1 with the sector of the address filled, through the slice if need be (R228). -/
def State.l1Fill (s : State) (d : Fin 4) (c : Fin 68) (pa : Nat) (cw : Bool) : L1Line × State :=
  let a := lineOf pa
  let sec := pa % 64 / 32
  let l := ((s.core d c).l1Find a).getD ⟨a, 0, 0, 0, .c, cw, false⟩
  if l.valid.getLsbD sec then (l, s)
  else
    let bad := s.meetsPoison d c pa
    let r := s.readLine d c a
    let en := (2 ^ 32 - 1) * 2 ^ (32 * sec)
    let l := { l with data := BitVec.ofNat 512 (mergeLanes 8 64 l.data.toNat r.1 en), valid := l.valid ||| BitVec.ofNat 2 (2 ^ sec),
                      poison := l.poison || bad }
    (l, r.2.l1Insert d c l)

/-- Byte of a cacheable address as a core's load sees it below its store queue: through the L1, filling it unless the access does not
allocate (R228). -/
def State.l1Read (s : State) (d : Fin 4) (c : Fin 68) (pa : Nat) (noAlloc : Bool) : Nat × State :=
  let a := lineOf pa
  let hit := match (s.core d c).l1Find a with
    | some l => if l.valid.getLsbD (pa % 64 / 32) then some (elemAt l.data.toNat 8 (pa % 64)) else none
    | none => none
  match hit with
  | some v => (v, s)
  | none =>
    if noAlloc then let r := s.readLine d c a; (elemAt r.1 8 (pa % 64), r.2)
    else let r := s.l1Fill d c pa false; (elemAt r.1.data.toNat 8 (pa % 64), r.2)

/-- One byte of a plain store enters the L1 (R228, R312): its sector is filled unless the store covers it whole, the byte is dirty and the
tag is `.c`. A poisoned line is poisoned no more once stores, one or several, have written all of its bytes; in a slice and at a home one write
must cover the line (10_cluster.md R299; DEDUCED, log 82). -/
def State.l1Write (s : State) (d : Fin 4) (c : Fin 68) (pa : Nat) (b : BitVec 8) (whole : Bool) (cw : Bool) : State :=
  let a := lineOf pa
  let sec := pa % 64 / 32
  let r := if whole then
      let l := ((s.core d c).l1Find a).getD ⟨a, 0, 0, 0, .c, cw, false⟩
      ({ l with valid := l.valid ||| BitVec.ofNat 2 (2 ^ sec) }, s)
    else s.l1Fill d c pa cw
  let l := r.1
  let i := pa % 64
  r.2.l1Insert d c
    { l with data := BitVec.ofNat 512 (mergeLanes 8 64 l.data.toNat (b.toNat * 2 ^ (8 * i)) (2 ^ i)),
             dirty := l.dirty ||| BitVec.ofNat 64 (2 ^ i), tag := .c,
             poison := l.poison && (l.dirty ||| BitVec.ofNat 64 (2 ^ i)) != BitVec.allOnes 64 }

/-- Whether the cells of a store cover the whole sector of an address. -/
def coversSector (cells : Bytes) (pa : Nat) : Bool :=
  (List.range 32).all fun i => cells.any fun x => x.1 == pa / 32 * 32 + i

/-- A plain store's bytes enter the L1. -/
def State.l1Store (s : State) (d : Fin 4) (c : Fin 68) (cells : Bytes) (cw : Bool) : State :=
  cells.foldl (fun s x => s.l1Write d c x.1 x.2 (coversSector cells x.1) cw) s

/-- STRL's own bytes go through to the level that serves its scope, and its line stands in the L1 with them, tagged with the scope and clean
(R228, R312; the release has written back what was dirty in it). -/
def State.storeThrough (s : State) (d : Fin 4) (c : Fin 68) (sc : Scope) (cells : Bytes) : State :=
  let s := (linesOf cells).foldl (fun s a =>
    let r := lineData cells a
    let s := s.writeBack d c sc a r.1 r.2
    let s := match (s.core d c).l1Find a with
      | none => s
      | some l => s.modCore d c fun k => k.l1Put
          { l with data := BitVec.ofNat 512 (mergeLanes 8 64 l.data.toNat r.1 r.2), dirty := l.dirty &&& ~~~ (BitVec.ofNat 64 r.2) }
    let s := (cells.filter fun x => lineOf x.1 == a).foldl (fun s x => (s.l1Fill d c x.1 false).2) s
    s.modCore d c fun k => match k.l1Find a with
      | none => k
      | some l => k.l1Put { l with tag := sc }) s
  if scopeRank sc ≥ 3 then s.bridgeDrain d else s

/-- VSTNT's bytes (05_vector.md R164): a line that the L1 holds is updated and left dirty; another is allocated in no L1 and its bytes go to
the slice. -/
def State.storeNoAlloc (s : State) (d : Fin 4) (c : Fin 68) (cells : Bytes) (cw : Bool) : State :=
  (linesOf cells).foldl (fun s a =>
    let r := lineData cells a
    if ((s.core d c).l1Find a).isSome then s.l1Store d c (cells.filter fun x => lineOf x.1 == a) cw else s.intoSlice d c a r.1 r.2) s

/-- Before a step at the home (10_cluster.md R289, 08_core_memory.md R245): the covering line of this core's L1 and of its slice is written
back and dropped. -/
def State.expose (s : State) (d : Fin 4) (c : Fin 68) (pa : Nat) : State :=
  let a := lineOf pa
  let s := match (s.core d c).l1Find a with
    | none => s
    | some l => (s.writeBackLine d c .d l).modCore d c fun k => k.l1Drop a
  let s := if isTaproot c then s else s.sliceEvict d (clusterOf c) a
  s.bridgePass d a

/-- Whether a step at the home of an address meets poison there, behind what this core's L1 and its slice write back before it (R289, R300). -/
def State.homePoison (s : State) (d : Fin 4) (c : Fin 68) (pa : Nat) : Bool := (s.expose d c pa).poisoned pa

/-- A write by another agent at a home: every slice drops its copy, writing back first what else is dirty in it (11_ordering.md R316:
copy-engine writes pass by every L2 slice and invalidate its copy), all the way to the home. -/
def State.invalidateSlices (s : State) (a : Nat) : State :=
  (List.finRange 4).foldl (fun s d =>
    if (s.die d).l2.any fun x => x.lines.any fun l => l.addr == a then
      ((List.range 8).foldl (fun s k => s.sliceEvict d k a) s).bridgePass d a
    else s) s

/-- Bytes put at their homes, whatever the slices hold. -/
def State.homePlace (s : State) (cells : Bytes) : State :=
  (linesOf cells).foldl (fun s a => let r := lineData cells a; s.homePut a r.1 r.2) s

/-- Bytes written at their homes by an agent that uses no cache, past every slice. -/
def State.homeWrite (s : State) (cells : Bytes) : State :=
  (linesOf cells).foldl (fun s a =>
    let r := lineData cells a
    (s.invalidateSlices a).homePut a r.1 r.2) s

/-- Bytes written at their homes by a service of a die, behind what waits in the die's bridge stop for those lines (12_die.md R324). -/
def State.dieWrite (s : State) (d : Fin 4) (cells : Bytes) : State := ((linesOf cells).foldl (fun s a => s.bridgePass d a) s).homeWrite cells

/-- A whole line replaced at its home (08_core_memory.md R249). -/
def State.homeWriteLine (s : State) (a data : Nat) : State := (s.invalidateSlices a).homePut a data (dataMask 64)

/-- The youngest value that a core's own store queue holds for a byte, among the first `n` entries of its memory pipeline from bundles
before `bseq` (04_control_scalar.md R122). -/
def queuedByte (pa : Nat) (bseq : Nat) : List MemOp → Option (BitVec 8)
  | [] => none
  | m :: l =>
    match queuedByte pa bseq l with
    | some b => some b
    | none =>
      if m.bseq ≥ bseq then none
      else
        match m.kind with
        | .store cells _ _ => (cells.reverse.find? fun x => x.1 == pa).map (·.2)
        | .release cells _ _ => (cells.reverse.find? fun x => x.1 == pa).map (·.2)
        | _ => none

/-- A byte at its home as the agents of a die find it. -/
def State.homeByte (s : State) (d : Fin 4) (pa : Nat) : BitVec 8 :=
  if (s.die d).bridge.isEmpty then sget s.mem pa else sget (s.memFor d) pa

/-- The home's byte under a dirty byte of this cluster's slice. -/
def State.belowL1 (s : State) (d : Fin 4) (c : Fin 68) (pa : Nat) : BitVec 8 :=
  match if isTaproot c then none else (s.slice d (clusterOf c)).find (lineOf pa) with
  | some l => if l.dirty.getLsbD (pa % 64) then BitVec.ofNat 8 (elemAt l.data.toNat 8 (pa % 64)) else s.homeByte d pa
  | none => s.homeByte d pa

/-- A byte of global memory as a copy engine of this core reads it: the home, under the slice's dirty bytes, under this core's own dirty
bytes, under its store queue up to the command's bundle (R229, R316). -/
def State.copyRead (s : State) (d : Fin 4) (c : Fin 68) (bseq pa : Nat) : BitVec 8 :=
  let k := s.core d c
  match queuedByte pa bseq k.memq with
  | some b => b
  | none =>
    let a := lineOf pa
    let i := pa % 64
    match k.l1Find a with
    | some l =>
      if l.dirty.getLsbD i then BitVec.ofNat 8 (elemAt l.data.toNat 8 i)
      else s.belowL1 d c pa
    | none => s.belowL1 d c pa

end Sys2Proof.Machine
end

