-- ==== Sys2Proof/Machine/Report.lean ====
section
/-! DEFINITION. The queues a die keeps in memory for the Taproot cores: pager, prefetch, events, machine checks (12_die.md R334, R335;
13_scheduling.md R362; 14_package.md R373), and what a register read returns (Tables 12-7, 13-4, 14-4, 14-5, 14-7, 15-3). -/

namespace Sys2Proof.Machine

open Sys2Proof

/-- A size register holds a power of two from 16 to 4,096 (R335). -/
def sizeValid (n : Nat) : Bool := [16, 32, 64, 128, 256, 512, 1024, 2048, 4096].contains n

/-- A queue has room: its size is valid and TAIL - HEAD is below it (R335; DEDUCED, log 11). -/
def MemQueue.room (q : MemQueue) : Bool := sizeValid q.size.toNat && decide ((q.tail - q.head).toNat < q.size.toNat)

/-- Where the next record of `len` bytes goes. -/
def MemQueue.slot (q : MemQueue) (len : Nat) : Nat := q.base.toNat + len * (q.tail.toNat % q.size.toNat)

/-- Cells of an `n`-byte little-endian value at an address. -/
def cellsOf (a v : Nat) (n : Nat) : Bytes := (List.range n).map fun i => (a + i, BitVec.ofNat 8 (v / 2 ^ (8 * i)))

/-- Little-endian record from fields given as (bytes, value), lowest first. -/
def packFields : List (Nat × Nat) → Nat
  | [] => 0
  | (n, v) :: l => v % 2 ^ (8 * n) + 2 ^ (8 * n) * packFields l

/-- A record written by a die to a queue in memory; TAIL then advances (R335). Bytes that fall where no memory is are dropped. -/
def State.queueRecord (s : State) (d : Fin 4) (q : MemQueue) (len v : Nat) : State × MemQueue :=
  let a := q.slot len
  (s.dieWrite d ((cellsOf a v len).filter fun x => s.hasMem x.1), { q with tail := q.tail + 1 })

/-- A machine check (R373): a record of 32 bytes, or counted lost when the queue has no room. -/
def State.machineCheck (s : State) (d : Fin 4) (kind unit addr : Nat) : State :=
  let q := (s.die d).mcq
  if q.room then
    let v := packFields [(2, kind), (2, unit), (4, 0), (8, addr), (8, s.hub.ptime.toNat), (8, 0)]
    let r := s.queueRecord d q 32 v
    r.1.modDie d fun x => { x with mcq := r.2 }
  else s.modDie d fun x => { x with mcLost := x.mcLost + 1 }

def EventRec.value (e : EventRec) : Nat := packFields [(1, e.kind), (1, e.cause), (2, e.idx), (2, e.core), (2, 0), (8, e.addr)]

/-- Writes held event records while the queue has room (13_scheduling.md R362). -/
def State.pumpEvents (s : State) (d : Fin 4) : Nat → State
  | 0 => s
  | n + 1 =>
    match (s.die d).events with
    | [] => s
    | e :: l =>
      let q := (s.die d).sevq
      if q.room then
        let r := s.queueRecord d q 16 e.value
        State.pumpEvents (r.1.modDie d fun x => { x with sevq := r.2, events := l }) d n
      else s

/-- Posts an event; one of the same kind for the same record that is still held is merged (R362). -/
def State.postEvent (s : State) (d : Fin 4) (e : EventRec) : State :=
  if (s.die d).events.any fun x => x.kind == e.kind && x.idx == e.idx then s
  else
    let s := s.modDie d fun x => { x with events := x.events ++ [e] }
    s.pumpEvents d (s.die d).events.length

/-- Writes pager records not yet written while their queue has room (12_die.md R334, R335). -/
def State.pumpPager (s : State) (d : Fin 4) : Nat → State
  | 0 => s
  | n + 1 =>
    match (s.die d).pager.find? fun r => !r.posted with
    | none => s
    | some e =>
      let q := (s.die d).pgq
      if q.room then
        let r := s.queueRecord d q 32 e.rec32
        State.pumpPager (r.1.modDie d fun x => { x with
          pgq := r.2, pager := x.pager.map fun y => if y.tag == e.tag then { y with posted := true } else y }) d n
      else s

/-- Held records go out when a queue register changes (R335, R362). -/
def State.pump (s : State) (d : Fin 4) : State :=
  let s := s.pumpEvents d (s.die d).events.length
  s.pumpPager d (s.die d).pager.length

/-- State codes of Table 13-2. -/
def NrState.code : NrState → Nat
  | .idle => 0 | .armed => 1 | .running => 2 | .parked => 3 | .ready => 4 | .trapped => 5

def Die.rec? (x : Die) (i : Nat) : Option NurRec := x.recs.find? fun r => r.idx == i

def NurRec.fresh (i : Nat) : NurRec := ⟨i, .idle, 0, 0, Vector.replicate 8 0, 0, 0, none, 0, false, false, none, 0, none⟩

/-- What the die holds for record `i`; IDLE when nothing has happened to it (R345). -/
def Die.recd (x : Die) (i : Nat) : NurRec := (x.rec? i).getD (.fresh i)

/-- Keeps the records in rising order of index. -/
def insertRec (r : NurRec) : List NurRec → List NurRec
  | [] => [r]
  | x :: l => if r.idx < x.idx then r :: x :: l else if r.idx = x.idx then r :: l else x :: insertRec r l

def State.setRec (s : State) (d : Fin 4) (r : NurRec) : State := s.modDie d fun x => { x with recs := insertRec r x.recs }

/-- Entries in the pending queue (Table 13-4). -/
def Die.pending (x : Die) : Nat := (x.recs.filter fun r => r.st == .armed).length

/-- TRIP of a Taproot core (14_package.md Table 14-4). -/
def State.trip (s : State) (d : Fin 4) (c : Fin 68) : Nat :=
  let x := s.die d
  let b (p : Bool) (k : Nat) : Nat := if p then 2 ^ k else 0
  let here := bits s.hub.mbRoute.toNat 1 0 == d.val
  b (decide ((s.core d c).tap.tcmp.toNat ≤ s.hub.ptime.toNat)) 0 + b (here && s.hub.mbPend != 0) 1 +
    b (x.pgq.tail != x.pgq.head) 2 + b (x.pfq.tail != x.pfq.head) 3 + b (x.sevq.tail != x.sevq.head) 4 +
    b (x.mcq.tail != x.mcq.head) 5 + b (here && s.hub.msiPend != 0) 6 + b (x.trSoft.getLsbD (c.val - 64)) 7

/-- One of four registers of a queue: BASE, SIZE, HEAD, TAIL. -/
def MemQueue.reg (q : MemQueue) (i : Nat) : W64 := ([q.base, q.size, q.head, q.tail].getD i 0)

/-- A 64-bit value read from an 8-byte aligned offset of a die's register block (Tables 12-7, 13-4, 14-5; 14_package.md Table 14-17 and
R390); offsets not listed read as zero (12_die.md R336). -/
def State.readDieReg (s : State) (d : Fin 4) (off : Nat) (dbg : Bool) : W64 :=
  let x := s.die d
  let i := off / 8
  if off = 0x0000 then s.cfg.dieCfg[d]
  else if off = 0x0008 then (if x.spread then 1 else 0)
  else if off = 0x0010 then s.cfg.dieCfg2[d]
  else if 0x0100 ≤ off ∧ off < 0x0140 then x.hwpin.getD (i - 0x20) 0
  else if off = 0x0140 then x.pinOvf.setWidth 64
  else if off = 0x0208 then BitVec.ofNat 64 x.tlbDone
  else if off = 0x0210 then x.tlbEnd
  else if off = 0x0218 then BitVec.ofNat 64 x.tlbSeq
  else if 0x0300 ≤ off ∧ off < 0x0320 then x.pgq.reg (i - 0x60)
  else if 0x0340 ≤ off ∧ off < 0x0360 then x.pfq.reg (i - 0x68)
  else if 0x0400 ≤ off ∧ off < 0x0600 then x.atDom.getD (i - 0x80) 0
  else if off = 0x0700 then x.atDef
  else if off = 0x0708 then (if x.atLock then 1 else 0)
  else if off = 0x0710 then x.atLog
  else if off = 0x0718 then x.atCnt.setWidth 64
  else if off = 0x0800 then x.ebudget
  else if off = 0x0808 then x.eused
  else if off = 0x0810 then x.etotal
  else if 0x0A00 ≤ off ∧ off < 0x0C00 then
    let e := x.atReg.getD ((off - 0x0A00) / 16) (0, 0)
    if off / 8 % 2 = 0 then e.1 else e.2
  else if 0x0C00 ≤ off ∧ off < 0x0E00 then x.spPerm.getD (i - 0x180) 0
  else if 0x1000 ≤ off ∧ off < 0x1200 then x.ecore.getD (i - 0x200) 0
  else if 0x1200 ≤ off ∧ off < 0x1400 then x.ethrot.getD (i - 0x240) 0
  else if off = 0x2000 then x.nurBase
  else if off = 0x2008 then x.schedCfg
  else if off = 0x2010 then BitVec.ofNat 64 x.pending
  else if 0x2020 ≤ off ∧ off < 0x2040 then x.sevq.reg (i - 0x404)
  else if 0x3000 ≤ off ∧ off < 0x3020 then x.mcq.reg (i - 0x600)
  else if off = 0x3020 then x.mcLost.setWidth 64
  else if off = 0x3100 then x.trSoft
  else if 0x3200 ≤ off ∧ off < 0x3280 then x.ceCnt.getD (i - 0x640) 0
  else if 0x3280 ≤ off ∧ off < 0x32C0 then x.l2ce.getD (i - 0x650) 0
  else if off = 0x3300 then x.scrub
  else if 0x3400 ≤ off ∧ off < 0x3420 then x.trStart.getD (i - 0x680) 0
  else if 0x4000 ≤ off ∧ off < 0x4800 then
    BitVec.ofNat 64 (packElems 4 ((List.range 16).map fun j => (x.recd (16 * (i - 0x800) + j)).st.code))
  else if 0x5000 ≤ off ∧ off < 0xA000 then sget x.shadow (off - 0x5000)
  else if dbg ∧ 0x01000000 ≤ off ∧ off < 0x01040000 then
    let k := (x.cores.toList.getD ((off - 0x01000000) / 0x1000) .start).dbg
    let o := off % 0x1000
    if o = 0x008 then
      BitVec.ofNat 64 ((if k.frozen then 1 else 0) + (if k.stepping || k.stepOver.isSome then 2 else 0) + (if k.err then 4 else 0) +
        256 * k.reason)
    else if o = 0x010 then k.data
    else if 0x400 ≤ o ∧ o < 0x540 then BitVec.ofNat 64 (k.recd / 2 ^ (8 * (o - 0x400)))
    else 0
  else 0

/-- A 64-bit value read from the Hub's register block (Tables 14-7, 15-3). -/
def State.readHubReg (s : State) (off : Nat) : W64 :=
  let h := s.hub
  let i := off / 8
  if off = 0x0000 then s.cfg.straps
  else if off = 0x0008 then h.ptime
  else if off = 0x0010 then (if h.trigAt.isSome then 1 else 0)
  else if off = 0x0018 then h.gseq
  else if off = 0x0100 then h.mbPend
  else if off = 0x0108 then h.mbRoute
  else if off = 0x0118 then h.msiPend
  else if off = 0x0120 then h.winBase
  else if off = 0x0128 then h.winSize
  else if off = 0x1000 then h.fabCfg
  else if 0x1040 ≤ off ∧ off < 0x1080 then h.fabPort.getD (i - 0x208) 0
  else if 0x1100 ≤ off ∧ off < 0x1178 then h.route.getD (i - 0x220) 0
  else if off = 0x1180 then h.fabDrop
  else if 0x1200 ≤ off ∧ off < 0x1400 then
    let e := h.fabRed.getD ((off - 0x1200) / 32) (0, 0)
    if off % 32 = 0 then e.1 else if off % 32 = 8 then e.2 else 0
  else 0

/-- A register of region 3, read whole (12_die.md R336). -/
def State.readReg (s : State) (pa : Nat) (dbg : Bool) : W64 :=
  let b := regBlock pa
  let off := pa % 2 ^ 32 / 8 * 8
  if b < 4 then (if s.hasDie b then s.readDieReg (dieOf b) off dbg else 0)
  else if b = 4 then s.readHubReg off
  else 0

end Sys2Proof.Machine
end

