-- ==== Sys2Proof/Machine/Nursery.lean ====
section
/-! DEFINITION. Launch records, what the cores of a die can grant, and the patch and arm steps (13_scheduling.md R343 to R349; 12_die.md R342;
04_control_scalar.md R107 to R109). -/

namespace Sys2Proof.Machine

open Sys2Proof

/-- The grade of a cluster, 3 for one that serves no core (12_die.md Tables 12-10, 12-12). -/
def State.grade (s : State) (d : Fin 4) (cluster : Nat) : Nat := bits (s.cfg.dieCfg[d]).toNat (33 + 2 * cluster) (32 + 2 * cluster)

/-- An engine core is enabled when its cluster has a grade and it is among the cluster's lowest-numbered enabled cores (R342). -/
def State.enabled (s : State) (d : Fin 4) (c : Nat) : Bool :=
  s.hasDie d.val && decide (c < 64) && s.grade d (c / 8) != 3 &&
    decide (c % 8 ≤ bits (s.cfg.dieCfg[d]).toNat (3 * (c / 8) + 2) (3 * (c / 8)))

/-- Matrix maxima of a core: M, N, KB (Table 12-12). -/
structure Maxima where
  m : Nat
  n : Nat
  kb : Nat
  deriving DecidableEq, Repr

def State.maxima (s : State) (d : Fin 4) (c : Nat) : Maxima :=
  match s.grade d (c / 8) with
  | 0 => ⟨16, 512, 64⟩
  | 1 => ⟨8, 512, 64⟩
  | 2 => ⟨16, 256, 64⟩
  | _ => ⟨0, 0, 0⟩

/-- A request that raises SHAPE, or makes a record INVALID: KIND 2 or 3, a reserved bit, or a dimension of zero (R110, Table 13-3). -/
def shapeBad (v : Nat) : Bool :=
  v / 2 ^ 32 != 0 ||
    match shKind v with
    | 0 => bits v 29 9 != 0 || shVL v == 0
    | 1 => bits v 4 0 != 0 || shN v == 0 || shM v == 0 || shKB v == 0
    | _ => true

/-- One granted dimension (R108): min(request, maximum), rounded down to the step, and at least one step. -/
def grantDim (req max step : Nat) : Nat :=
  let g := Nat.min req max / step * step
  if g = 0 then step else g

/-- The grant of a good request (R108, R109, Table 4-5). -/
def grantOf (x : Maxima) (v : Nat) : Nat :=
  if shKind v = 0 then grantDim (shVL v) 256 1
  else 2 ^ 30 + grantDim (shN v) x.n 32 * 2 ^ 20 + grantDim (shM v) x.m 1 * 2 ^ 13 + grantDim (shKB v) x.kb 1 * 2 ^ 5

/-- Whether a core's maxima reach a matrix grant; anything else asks nothing of them (R111, R357). -/
def Maxima.fits (x : Maxima) (v : Nat) : Bool :=
  if v = 0 ∨ shKind v ≠ 1 then true else decide (shM v ≤ x.m) && decide (shN v ≤ x.n) && decide (shKB v ≤ x.kb)

/-- Whether a core's maxima reach a SHAPE field; the vector maximum is 256 on every core (R109, R357, Table 13-3). -/
def Maxima.meets (x : Maxima) (v : Nat) : Bool := x.fits v && (shKind v != 0 || decide (shVL v ≤ 256))

/-- Where record `i` of a die lies (R343). -/
def Die.recAddr (x : Die) (i : Nat) : Nat := x.nurBase.toNat + 256 * i

/-- `n` bytes at an offset of a launch record in memory. -/
def State.recMem (s : State) (d : Fin 4) (i off n : Nat) : Nat := readLE (s.memFor d) ((s.die d).recAddr i + off) n

/-- `n` bytes at an offset of a launch record as the Nursery read it last: when it was armed, and again when its thread started (R345). -/
def State.recField (s : State) (d : Fin 4) (i off n : Nat) : Nat := ((s.die d).recd i).image / 2 ^ (8 * off) % 2 ^ (8 * n)

/-- The Nursery reads a record (R345). -/
def State.readRec (s : State) (d : Fin 4) (i : Nat) : State :=
  let a := (s.die d).recAddr i
  let s := [a, a + 64, a + 128, a + 192].foldl State.touchHome s
  s.setRec d { (s.die d).recd i with image := s.recMem d i 0 256 }

/-- SHAPE0 to SHAPE3 of a record. -/
def State.recShapes (s : State) (d : Fin 4) (i : Nat) : List Nat := (List.range 4).map fun k => s.recField d i (0x50 + 8 * k) 8

/-- Whether a thread of an address space may patch and arm a record (R348, Table 13-3). -/
def State.recOpen (s : State) (d : Fin 4) (i asn : Nat) : Bool :=
  let w := s.recMem d i 0x48 2
  w.testBit 15 || bits w 11 0 == asn

/-- A record, as read, that LARM finds INVALID (Table 13-3, order 2). -/
def State.recInvalid (s : State) (d : Fin 4) (i : Nat) : Bool :=
  let f := s.recField d i
  f 0x00 4 != 1 || f 0x04 1 == 0 || f 0x04 1 > 3 || f 0x05 1 ≥ 8 || f 0x06 2 ≥ 4 || f 0x08 8 % 4 != 0 || f 0x10 8 / 2 ^ 46 != 0 ||
  f 0x18 8 % 2 ^ 16 != 0 || f 0x18 8 ≥ 2 ^ 44 || f 0x20 8 % 2 ^ 13 != 0 || f 0x28 8 % 8 != 0 || f 0x30 8 % 8 != 0 ||
  f 0x40 4 > 0x80000 || f 0x40 4 % 64 != 0 || bits (f 0x48 2) 14 12 != 0 || f 0x4A 1 == 0 || f 0x4B 5 != 0 || f 0x70 16 != 0 ||
  f 0xC0 32 != 0 || f 0xE9 1 != 0 || f 0xF0 16 != 0 || (s.recShapes d i).any fun v => v != 0 && shapeBad v

/-- Some enabled core of a cluster of AFFIN reaches every SHAPE field (Table 13-3, NOFIT). -/
def State.recFits (s : State) (d : Fin 4) (i : Nat) : Bool :=
  let aff := s.recField d i 0x4A 1
  (List.range 64).any fun c => s.enabled d c && aff.testBit (c / 8) && (s.recShapes d i).all fun v => (s.maxima d c).meets v

/-- The record a record operand names (R347): die and index; none where LAUNCH is raised. -/
def State.recOperand (s : State) (v : W64) : Option (Fin 4 × Nat) :=
  let n := v.toNat
  if n / 2 ^ 14 != 0 || !s.hasDie (bits n 13 12) then none else some (dieOf (bits n 13 12), bits n 11 0)

/-- The write of LPATCH at the Nursery (R348). -/
def State.patchRec (s : State) (d : Fin 4) (i : Nat) (k : Nat) (v : W64) : State :=
  s.dieWrite d (cellsOf ((s.die d).recAddr i + 0x80 + 8 * k) v.toNat 8)

/-- The home of an 8-byte word of a record under the record's translation, which no core holds: walked anew, and checked as master 68
(R352, R354; DEDUCED, log 17). A fabric address is not reached (15_fabric.md R406). -/
def State.recWord (s : State) (d : Fin 4) (i : Nat) (kind : AccKind) (va : Nat) : Option Nat × State :=
  let root := s.recField d i 0x10 8
  if !canonical (BitVec.ofNat 64 va) then (none, s)
  else
    match s.walkFrom d (va % 2 ^ 48) 4 (bits root 45 12 * 4096) with
    | (.error (.refused r), s) => (none, s.logRefused r)
    | (.error (.fabRefused l), s) => (none, l.foldl State.logRefused s)
    | (.error _, s) => (none, s)
    | (.ok l, s) =>
      let e := l.entry
      if !leafPermits (pteR e) (pteW e) (pteX e) (!pteSup e) (pteCw e) false kind then (none, s)
      else
        match s.markLeaf d l kind.isWrite with
        | .error (.refused r) => (none, s.logRefused r)
        | .error (.fabRefused l) => (none, l.foldl State.logRefused s)
        | .error _ => (none, s)
        | .ok s =>
          let pa := ptePa e / 2 ^ l.size * 2 ^ l.size + va % 2 ^ l.size
          match s.checkPhys d 68 false kind pa 8 with
          | .error (.refused r) => (none, s.logRefused r)
          | .error _ => (none, s)
          | .ok .fabric => (none, s)
          | .ok .mem => let s := s.bridgePass d (lineOf pa); if s.poisoned pa then (none, s) else (some pa, s)
          | .ok _ => (some pa, s)

/-- An event of a record (Table 13-6) with its last core as OUTCORE gives it. -/
def State.recEvent (s : State) (d : Fin 4) (i kind cause addr : Nat) : State :=
  s.postEvent d ⟨kind, cause, i, match ((s.die d).recd i).lastCore with | some c => c.val + 256 * d.val | none => 0, addr⟩

/-- Tests the dependence of a record: met with DEP = 0, or with a word of 0 at its home; a word that cannot be read is an event of
kind 2 (R354). -/
def State.testDep (s : State) (d : Fin 4) (i : Nat) : State :=
  let dep := s.recField d i 0x30 8
  let set (s : State) (met : Bool) : State := s.setRec d { (s.die d).recd i with depMet := met }
  if dep = 0 then set s true
  else
    match s.recWord d i .read dep with
    | (some pa, s) =>
      let w := readLE s.mem pa 8
      if bits pa 45 44 = 0 then set s (w == 0) else set { s with fresh := s.fresh + 8 } (freeBytes s.fresh 8 == 0)
    | (none, s) => (set s false).recEvent d i 2 0 dep

/-- The arm step at the Nursery (R349, Table 13-3): the status and what it changes; an arm is followed by a pass of the scheduler (R355). -/
def State.armRec (s : State) (d : Fin 4) (i asn : Nat) : Nat × State :=
  let x := s.die d
  let r : NurRec := { NurRec.fresh i with image := s.recMem d i 0 256 }
  let t := s.setRec d r
  if !s.recOpen d i asn then (5, s)
  else if t.recInvalid d i then (3, s)
  else if (x.recd i).st ≠ .idle then (1, s)
  else if !t.recFits d i then (4, s)
  else if x.pending ≥ 256 then (2, s)
  else
    let args : Vector W64 8 := Vector.ofFn fun k => BitVec.ofNat 64 (t.recField d i (0x80 + 8 * k.val) 8)
    (0, ((s.setRec d { r with st := .armed, armTime := s.hub.ptime, args := args }).testDep d i).modDie d fun x => { x with passDue := true })

end Sys2Proof.Machine
end

