-- ==== Sys2Proof/Machine/Barrier.lean ====
section
/-! DEFINITION. Steps on words at their home: barrier words, membership sets, atomics (04_control_scalar.md R127; 10_cluster.md R287 to R300;
08_core_memory.md R245; 14_package.md R369; 15_fabric.md R415). -/

namespace Sys2Proof.Machine

open Sys2Proof

/-- Whether an address lies in region 0, where lines are cached; a fabric address is uncached (R322, 15_fabric.md R407). -/
def State.cacheable (s : State) (pa : Nat) : Bool := bits pa 45 44 == 0 && !s.isFabric pa

/-- `n` bytes read at their home by an agent without a cache: memory, fabric, PCIe (free bytes) or a register. -/
def State.readHome (s : State) (pa n : Nat) : Nat × State :=
  if s.isFabric pa then s.readFabric pa n
  else if bits pa 45 44 = 0 then (readLE s.mem pa n, s.touchHome (lineOf pa))
  else if bits pa 45 44 = 3 then ((s.readReg pa false).toNat % 2 ^ (8 * n), s)
  else (freeBytes s.fresh n, { s with fresh := s.fresh + n })

/-- Bytes written at their home, those of this package's memory by `put`; the PCIe window takes them outside (R322). -/
def State.writeBy (put : State → Bytes → State) (s : State) (cells : Bytes) : State :=
  let (fab, here) := cells.partition fun x => s.isFabric x.1
  let s := put s (here.filter fun x => s.hasMem x.1)
  let own := fab.filter fun x => fabPkg x.1 == s.pkgId
  let s := put s ((own.map fun x => (x.1 % 2 ^ 40, x.2)).filter fun x => s.hasMem x.1)
  { s with fabMem := writeCells s.fabMem (fab.filter fun x => fabPkg x.1 != s.pkgId) }

/-- Bytes written at their home by an agent without a cache. -/
def State.writeHome (s : State) (cells : Bytes) : State := s.writeBy State.homeWrite cells

/-- Bytes that a step leaves at their home, where no slice gives its copy up for it (10_cluster.md R289). -/
def State.stepHome (s : State) (cells : Bytes) : State := s.writeBy State.homePlace cells

/-- The home address of a word that lies in this package, also when a fabric address names it. -/
def State.ownPa (s : State) (pa : Nat) : Nat := if s.isFabric pa && fabPkg pa == s.pkgId then pa % 2 ^ 40 else pa

/-- One indivisible step on the 8 bytes of a word at its home; what the slices hold of it stays theirs, and a poisoned word takes no step (R289,
R300). -/
def State.stepWord (s : State) (pa : Nat) (f : Nat → Nat) : State :=
  let a := s.ownPa pa
  if s.cacheable a && s.poisoned a then s
  else
    let r := s.readHome a 8
    r.2.stepHome (cellsOf a (f r.1) 8)

/-- An arrival (R290): discarded when EXP is 0. -/
def barArrive (w : Nat) : Nat :=
  if barExp w = 0 then w
  else if barArr w + 1 ≥ barExp w then barPack (barExp w) 0 (barWaitPh w) (!barPh w)
  else barPack (barExp w) (barArr w + 1) (barWaitPh w) (barPh w)

/-- BARARV: WAITPH := PH and an arrival, one step (R290). -/
def barOwnArrive (w : Nat) : Nat :=
  if barExp w = 0 then w else barArrive (barPack (barExp w) (barArr w) (barPh w) (barPh w))

/-- A BARWAIT that passes consumes the completion: WAITPH := PH (R290). -/
def barConsume (w : Nat) : Nat := barPack (barExp w) (barArr w) (barPh w) (barPh w)

/-- A set completion's step on a bound word: ARR := 0, PH flips (R297). -/
def barFlip (w : Nat) : Nat := barPack (barExp w) 0 (barWaitPh w) (!barPh w)

def barInit (count : Nat) : Nat := count % 2 ^ 16 * 2 ^ 48

def State.sets (s : State) (d : Fin 4) (k : Nat) (n : Nat) : List Member := (s.slice d k).sets.getD n []

def State.setSets (s : State) (d : Fin 4) (k n : Nat) (l : List Member) : State :=
  s.setSlice d k { s.slice d k with sets := (s.slice d k).sets.setIfInBounds n l }

/-- A set whose members have all arrived completes its phase (R296, R297): arrived bits clear, each bound word takes its step, behind what the
set's own slice has of it (R289; DEDUCED, log 81), and a poisoned word is reported (R300). -/
def State.setComplete (s : State) (d : Fin 4) (k n : Nat) : State :=
  let l := s.sets d k n
  if l.isEmpty || !(l.all fun m => m.arrived) then s
  else
    let s := s.setSets d k n (l.map fun m => { m with arrived := false })
    l.foldl (fun s m =>
      let s := (s.sliceEvict d k (lineOf m.pa)).bridgePass d (lineOf m.pa)
      if s.poisoned m.pa then s.machineCheck d 8 (32 * k + n) m.pa else s.stepWord m.pa barFlip) s

/-- The bound words of a set, at a completion of which their waits may end. -/
def State.noteSet (s : State) (src : Source) (l : List Member) : State := l.foldl (fun s m => s.noteWord src m.pa) s

/-- GLEAVE at the slice (R296): the thread and its bit go; the others' phase may complete. -/
def State.setLeave (s : State) (d : Fin 4) (k n : Nat) (die : Fin 4) (idx : Nat) : State :=
  let l := s.sets d k n
  if l.any fun m => m.die == die && m.idx == idx then
    (s.setSets d k n (l.filter fun m => !(m.die == die && m.idx == idx))).setComplete d k n
  else s

/-- GJOIN at the slice (R295): none where the set is full or holds the thread already. -/
def State.setJoin (s : State) (d : Fin 4) (k n : Nat) (m : Member) : Option State :=
  let l := s.sets d k n
  if l.length ≥ 8 || l.any (fun x => x.die == m.die && x.idx == m.idx) then none else some (s.setSets d k n (l ++ [m]))

/-- An arrival at a set (R297): discarded for a thread that is no member, and a second one in a phase changes nothing. -/
def State.setArrive (s : State) (d : Fin 4) (k n : Nat) (die : Fin 4) (idx : Nat) : State :=
  let l := s.sets d k n
  if l.any fun m => m.die == die && m.idx == idx && !m.arrived then
    (s.setSets d k n (l.map fun m => if m.die == die && m.idx == idx then { m with arrived := true } else m)).setComplete d k n
  else s

/-- A thread leaves every set of its die (R294). -/
def State.leaveAll (s : State) (d : Fin 4) (idx : Nat) : State :=
  (List.range 8).foldl (fun s k => (List.range 32).foldl (fun s n => s.setLeave d k n d idx) s) s

/-- Operations numbered as YATOM numbers them, compare-and-swap last (R127, R245). -/
def amoOf (n : Nat) : Amo := [Amo.add, .and, .or, .xor, .min, .max, .swp].getD n .cas

/-- A value of `w` bits sign-extended to 64 bits. -/
def sx64 (w v : Nat) : Nat := (sInt w (v % 2 ^ w) % (2 ^ 64 : Int)).toNat

/-- An atomic of `w` bytes at the home, indivisible: the old value and the effect (R245, R289, R369). -/
def State.amoHome (s : State) (pa : Nat) (op : Amo) (w b cmp : Nat) : Nat × State :=
  let a := s.ownPa pa
  let r := s.readHome a w
  (r.1, r.2.stepHome (cellsOf a (op.eval w r.1 b cmp) w))

end Sys2Proof.Machine
end

