-- ==== Sys2Proof/Machine/Pipe.lean ====
section
/-! DEFINITION. The memory pipeline of a core: which entries may be performed, and what performing one does (04_control_scalar.md R128 to R132;
11_ordering.md R306 to R313, R316, R318; 10_cluster.md R289, R293; 13_scheduling.md R346 to R349; 15_fabric.md R407, R408). -/

namespace Sys2Proof.Machine

open Sys2Proof

/-- The bytes an entry reads or writes. -/
def MemKind.bytes : MemKind → List Nat
  | .load _ _ cells _ _ _ => cells.map (·.2)
  | .store cells _ _ => cells.map (·.1)
  | .addStore items => items.flatMap fun x => (List.range x.2.1).map (x.1 + ·)
  | .release cells _ _ => cells.map (·.1)
  | .arrive (.remSet _) _ _ _ => []
  | .arrive _ pa _ _ => (List.range 8).map (pa + ·)
  | .flushLine pa _ => (List.range 64).map (lineOf pa + ·)
  | _ => []

def MemKind.isAcquire : MemKind → Bool
  | .load _ _ _ _ _ acq => acq.isSome
  | .flush _ inv => inv
  | _ => false

/-- Entries that read global memory for a result (Table 11-2, "load"). -/
def MemKind.isLoad : MemKind → Bool
  | .load _ _ _ _ _ _ => true
  | _ => false

/-- Plain stores (Table 11-2, "store"). -/
def MemKind.isStore : MemKind → Bool
  | .store _ _ _ => true
  | .addStore _ => true
  | _ => false

/-- Releases with a store, an arrival or an arm of their own (Table 11-3). -/
def MemKind.isRelease : MemKind → Bool
  | .release _ _ _ => true
  | .larm _ _ _ => true
  | .arrive (.init _) _ _ _ => false
  | .arrive _ _ _ _ => true
  | _ => false

def MemKind.isFlush : MemKind → Bool
  | .flush _ _ => true
  | _ => false

def MemKind.isArrive : MemKind → Bool
  | .arrive _ _ _ _ => true
  | _ => false

/-- Steps at the Nursery, taken in issue order (13_scheduling.md R346). -/
def MemKind.isNursery : MemKind → Bool
  | .larm _ _ _ => true
  | .lpatch _ _ _ => true
  | _ => false

/-- Entries that hold nothing back by themselves. -/
def MemKind.isHint : MemKind → Bool
  | .mark => true
  | .prefetch _ => true
  | _ => false

def MemKind.isMark : MemKind → Bool
  | .mark => true
  | _ => false

def overlaps (a b : List Nat) : Bool := a.any fun x => b.contains x

def MemKind.meets (a b : MemKind) : Bool := overlaps a.bytes b.bytes

/-- Whether an earlier entry holds a later one back (DEDUCED, log 12 gives the order of every pair). -/
def MemKind.holds (e m : MemKind) : Bool :=
  match m with
  | .load _ _ _ _ _ acq =>
    e.isAcquire || e.isFlush || (e.isLoad && e.meets m) ||
      (match e with
        | .addStore _ => e.meets m
        | .flushLine _ _ => e.meets m
        | .arrive _ _ _ _ => e.meets m
        | _ => false) ||
      (acq.isSome && e.isRelease)
  | .store _ _ _ => e.isAcquire || e.isFlush || e.isStore || e.meets m
  | .addStore _ => e.isAcquire || e.isFlush || e.isStore || e.meets m
  | .release _ _ _ => !e.isHint
  | .larm _ _ _ => !e.isHint
  | .arrive req _ _ _ =>
    match req with
    | .init _ => e.isAcquire || e.isFlush || e.isArrive || e.meets m
    | _ => !e.isHint
  | .lpatch _ _ _ => e.isNursery || e.isAcquire || e.isFlush
  | .flush _ _ => !e.isHint
  | .flushLine _ _ => e.isFlush || (e.isStore && e.meets m)
  | .prefetch _ => e.isFlush
  | .mark => false

/-- A core's own fabric write, not of a copy command, that is still without its acknowledgement, and so performed at no scope
(15_fabric.md R407). -/
def State.fabOwed (s : State) (d : Fin 4) (c : Fin 68) (which : FabWrite → Bool) : Bool :=
  s.hub.fabWrites.any fun w => w.die == d && w.core == c && w.cmd.isNone && which w

/-- A fabric write of a bundle before this one is owed. -/
def State.fabBefore (s : State) (d : Fin 4) (c : Fin 68) (bseq : Nat) : Bool := s.fabOwed d c fun w => decide (w.bseq < bseq)

/-- The store or arrival of a release is owed: an acquire issued behind it is not performed before it (11_ordering.md R313). -/
def State.relOwed (s : State) (d : Fin 4) (c : Fin 68) : Bool := s.fabOwed d c fun w => w.rel

/-- Whether an entry reads or writes a fabric address. -/
def State.touchesFabric (s : State) (m : MemKind) : Bool := m.bytes.any s.isFabric

/-- QMARK (R130): a load or store of a later bundle (`bseq`) waits for every load of the bundles before the mark's. Their stores have entered
the store queue at issue, which is core scope, but for those to a fabric address, which no scope has before their acknowledgement
(11_ordering.md R307; 15_fabric.md R407). -/
def State.markHolds (s : State) (d : Fin 4) (c : Fin 68) (m : MemKind) (bseq : Nat) (q : List MemOp) : Bool :=
  (m.isLoad || m.isStore || m.isRelease) &&
    q.any fun x => x.kind.isMark && decide (x.bseq < bseq) &&
      (s.fabBefore d c x.bseq || q.any fun e => (e.kind.isLoad || (!e.kind.isHint && s.touchesFabric e.kind)) && decide (e.bseq < x.bseq))

/-- Whether the pipeline holds something that an atomic on these bytes must follow (14_package.md R369: it is a load followed by a store
to them): an acquire, a flush, an access to the bytes, or what a QMARK puts before a load. -/
def State.holdsAtomic (s : State) (d : Fin 4) (c : Fin 68) (bytes : List Nat) : Bool :=
  let k := s.core d c
  (k.memq.any fun e => e.kind.isAcquire || e.kind.isFlush || overlaps e.kind.bytes bytes) ||
    s.markHolds d c (.load (.s 0) .zext [] false false none) k.bseq k.memq

/-- Uncached bytes: region 2, region 3 and fabric addresses (R322, 15_fabric.md R407). A load of them waits for the thread's own earlier
stores to them. -/
def State.uncachedOverlap (s : State) (e m : MemKind) : Bool :=
  m.isLoad && e.isStore && (m.bytes.any fun a => !s.cacheable a) && e.meets m

/-- The commands of a release have all left their engines (R310), and so has every fabric write of the core been acknowledged
(15_fabric.md R407). -/
def State.commandsDone (s : State) (d : Fin 4) (c : Fin 68) (cmds : List Nat) : Bool :=
  let e := (s.core d c).eng
  !(e.mq.any fun m => cmds.contains m.id) && !(e.yq.toList.any fun q => q.any fun y => cmds.contains y.id) &&
    !(s.fabOwed d c fun _ => true)

/-- A release and a fence order the scratchpad writes of bundles before theirs (R310): a VTBLD row on its way comes first, one that a trap
set aside (09_core_traps.md R260) included. -/
def Core.tableAhead (k : Core) (m : MemOp) : Bool :=
  (m.kind.isRelease || m.kind.isFlush) &&
    (k.pend ++ k.srb).any fun w => decide (w.iss < m.iss) && w.handler == m.handler && match w.dst with | .vtbld _ => true | _ => false

/-- Whether the entries and commands before entry `n` of a core's memory pipeline let it be performed. -/
def State.ordered (s : State) (d : Fin 4) (c : Fin 68) (n : Nat) : Bool :=
  let q := (s.core d c).memq
  match q[n]? with
  | none => false
  | some m =>
    let before := q.take n
    !(before.any fun e => e.kind.holds m.kind || s.uncachedOverlap e.kind m.kind) && !(s.markHolds d c m.kind m.bseq before) &&
      match m.kind with
      | .load _ _ _ _ _ acq => !(acq.isSome && s.relOwed d c)
      | .mark => before.all (fun e => e.kind.isHint) && !(s.fabBefore d c m.bseq)
      | .release _ _ cmds => s.commandsDone d c cmds
      | .arrive (.init _) _ _ _ => true
      | .arrive _ _ _ cmds => s.commandsDone d c cmds
      | .larm _ _ cmds => s.commandsDone d c cmds
      | .flush _ _ => s.commandsDone d c []
      | _ => true

/-- Whether entry `n` of a core's memory pipeline may be performed now. -/
def State.mayPerform (s : State) (d : Fin 4) (c : Fin 68) (n : Nat) : Bool :=
  s.ordered d c n && !(((s.core d c).memq[n]?).any (s.core d c).tableAhead)

/-- A mark with nothing before it leaves the pipeline, unless `owed` says that something is still before it. -/
def dropMarks (owed : MemOp → Bool) : List MemOp → List MemOp
  | [] => []
  | m :: l => if m.kind.isMark && !owed m then dropMarks owed l else m :: l

/-- Entry `n` leaves the pipeline. A mark behind it stays while a fabric write before the mark, of this entry or of an earlier one, is
owed. -/
def State.retireEntry (s : State) (d : Fin 4) (c : Fin 68) (n : Nat) : State :=
  let owed (m : MemOp) : Bool := s.fabBefore d c m.bseq ||
    (((s.core d c).memq[n]?).any fun e => s.touchesFabric e.kind && decide (e.bseq < m.bseq))
  s.modCore d c fun k => { k with memq := dropMarks owed (listDrop k.memq n) }

/-- One byte as a load of this core reads it: from its store queue, else at the level that serves its address. -/
def State.loadByte (s : State) (d : Fin 4) (c : Fin 68) (before : List MemOp) (bseq pa : Nat) (noAlloc : Bool) : Nat × State :=
  match queuedByte pa bseq before with
  | some b => (b.toNat, s)
  | none => if s.cacheable pa then s.l1Read d c pa noAlloc else s.readHome pa 1

/-- The bytes of a load, each shifted to its place. -/
def State.loadCells (s : State) (d : Fin 4) (c : Fin 68) (before : List MemOp) (bseq : Nat) (noAlloc : Bool) :
    List (Nat × Nat) → Nat × Nat × State
  | [] => (0, 0, s)
  | (i, pa) :: l =>
    let r := s.loadByte d c before bseq pa noAlloc
    let q := State.loadCells r.2 d c before bseq noAlloc l
    (r.1 * 2 ^ (8 * i) + q.1, 2 ^ i ||| q.2.1, q.2.2)

def LdFmt.apply : LdFmt → Nat → Nat
  | .zext, v => v
  | .sext w, v => sx64 w v
  | .lanes, v => v

/-- A register access of 8 bytes is one read, not eight (12_die.md R336). -/
def State.loadValue (s : State) (d : Fin 4) (c : Fin 68) (before : List MemOp) (bseq : Nat) (noAlloc : Bool) (cells : List (Nat × Nat)) :
    Nat × Nat × State :=
  match cells with
  | (_, pa) :: _ =>
    if !s.cacheable pa && bits pa 45 44 == 3 then ((s.readReg pa false).toNat, 0xFF, s)
    else s.loadCells d c before bseq noAlloc cells
  | [] => (0, 0, s)

/-- The lines an L1 fill leaves carry the CW mark of their page (R312, R190). -/
def State.markCw (s : State) (d : Fin 4) (c : Fin 68) (cells : List (Nat × Nat)) : State :=
  s.modCore d c fun k => { k with l1 := k.l1.map fun l => if cells.any fun x => lineOf x.2 == l.addr then { l with cw := true } else l }

/-- A fabric write of bundle `bseq` is on its way until acknowledged (15_fabric.md R407). -/
def State.oweFabric (s : State) (d : Fin 4) (c : Fin 68) (bseq : Nat) (rel : Bool) (pa : Nat) : State :=
  s.modHub fun h => { h with fabWrites := h.fabWrites ++ [⟨h.nextFab, d, c, none, pa, bseq, rel⟩], nextFab := h.nextFab + 1 }

/-- A fabric write of a Taproot core is lost: counted, and a machine check of kind 6 (15_fabric.md R408). -/
def State.fabricLost (s : State) (d : Fin 4) (pa : Nat) (refs : List Refused) : State :=
  (refs.foldl State.logRefused (s.modHub fun h => { h with fabDrop := (h.fabDrop + 1) &&& 0xFFFFFFFF })).machineCheck d 6 (0x100 + fabPkg pa) pa

/-- A store of a Taproot core to a fabric address (15_fabric.md R407, R408, R413): dropped with a machine check of kind 6 where no route
leads or the target's tables refuse it, else on its way until acknowledged. `rel` marks the store of a release. -/
def State.fabricStore (s : State) (d : Fin 4) (c : Fin 68) (bseq : Nat) (rel : Bool) (cells : Bytes) : State :=
  match cells with
  | [] => s
  | (pa, _) :: _ =>
    match s.fabAnswer pa .write with
    | .noRoute => s.fabricLost d pa []
    | .refused l => s.fabricLost d pa l
    | .ok | .bad =>
      let s := { s with fresh := s.fresh + 1 }
      (s.writeHome cells).oweFabric d c bseq rel pa

/-- The bytes of a plain store leave the store queue, each for the region its address lies in (R322); `reg` is what a register write does. -/
def State.drainCells (reg : State → Fin 4 → Nat → W64 → State) (s : State) (d : Fin 4) (c : Fin 68) (bseq : Nat) (rel : Bool) (cells : Bytes)
    (cw noAlloc : Bool) : State :=
  match cells with
  | [] => s
  | (pa, _) :: _ =>
    if bits pa 45 44 = 3 then reg s d pa (BitVec.ofNat 64 (leOf (cells.map (·.2))))
    else
      let mem := cells.filter fun x => s.cacheable x.1
      let t := s.fabricStore d c bseq rel (cells.filter fun x => s.isFabric x.1)
      if noAlloc then t.storeNoAlloc d c mem cw else t.l1Store d c mem cw

/-- An acquiring load at `.d` or wider finds a word as it stands at its home: the slice has sent on what is dirty in it (10_cluster.md R289;
R312). -/
def State.sendOn (s : State) (d : Fin 4) (c : Fin 68) (sc : Scope) (cells : List (Nat × Nat)) : State :=
  if scopeRank sc < 2 || isTaproot c then s
  else (linesOf ((cells.filter fun x => s.cacheable x.2).map fun x => (x.2, (0 : BitVec 8)))).foldl (fun s a => s.sliceFlush d (clusterOf c) a) s

/-- One element of a VSCATA to global memory: an indivisible addition at the home (05_vector.md R167). -/
def State.addHome (s : State) (d : Fin 4) (c : Fin 68) (pa w v : Nat) : State :=
  ((if s.cacheable pa then s.expose d c pa else s).amoHome pa .add w v 0).2

/-- An arm step from die `d`. Where a link has gone down since LARM issued and no route to the record's die remains, the step is not taken, and the
status is open (14_package.md R365; DESIGN CHOICE, log 84: free). -/
def State.armFrom (s : State) (d : Fin 4) (rec asn : Nat) : Nat × State :=
  if s.dieRoute d.val (dieOf (rec / 4096)).val then s.armRec (dieOf (rec / 4096)) (rec % 4096) asn
  else ((Config.lostStatus s.fresh).toNat, { s with fresh := s.fresh + 1 })

/-- What performing one entry does; the entry is already out of the pipeline, `before` are the entries ahead of it. -/
def State.performKind (reg : State → Fin 4 → Nat → W64 → State) (s : State) (d : Fin 4) (c : Fin 68) (before : List MemOp) (m : MemOp) :
    State :=
  let thr := (s.core d c).thr
  let asn := (s.who d c).asn
  match m.kind with
  | .load dst fmt cells noAlloc cw acq =>
    let s := match acq with | some sc => (s.acquireLines d c sc).sendOn d c sc cells | none => s
    let r := s.loadValue d c before m.bseq noAlloc cells
    let s := if cw then r.2.2.markCw d c cells else r.2.2
    s.modCore d c fun k => k.arrive m.iss m.slot m.handler dst (fmt.apply r.1) r.2.1
  | .store cells cw noAlloc => s.drainCells reg d c m.bseq false cells cw noAlloc
  | .addStore items => items.foldl (fun s x => (s.addHome d c x.1 x.2.1 x.2.2).noteWord (.core d c) x.1) s
  | .release cells sc _ =>
    let s := s.releaseLines d c sc
    match cells with
    | [] => s
    | (pa, _) :: _ => if !s.cacheable pa then s.drainCells reg d c m.bseq true cells false false
      else if sc = .c then s.l1Store d c cells false
      else (s.storeThrough d c sc cells).noteWord (.core d c) pa
  | .arrive req pa sc _ =>
    match req with
    | .init n => ((s.expose d c pa).stepWord pa fun _ => barInit n).noteWord (.core d c) pa
    | .arrive => (((s.releaseLines d c sc).expose d c pa).stepWord pa barOwnArrive).noteWord (.core d c) pa
    | .remAddr =>
      let s := s.releaseLines d c sc
      if s.isFabric pa && (s.fabAnswer pa .write).drops then s.fabricStore d c m.bseq true (cellsOf pa 0 8)
      else if s.isFabric pa then ((s.stepWord pa barArrive).oweFabric d c m.bseq true pa).noteWord (.core d c) (s.ownPa pa)
      else ((s.expose d c pa).stepWord pa barArrive).noteWord (.core d c) (s.ownPa pa)
    | .remSet n =>
      let l := s.sets d (clusterOf c) n
      ((s.releaseLines d c sc).setArrive d (clusterOf c) n d thr.idx).noteSet (.core d c) l
  | .larm dst rec _ =>
    let s := s.releaseLines d c .p
    let r := s.armFrom d rec asn
    r.2.modCore d c fun k => k.arrive m.iss m.slot m.handler dst r.1 0
  | .lpatch rec k v => if s.dieRoute d.val (dieOf (rec / 4096)).val then s.patchRec (dieOf (rec / 4096)) (rec % 4096) k.val v else s
  | .mark => s
  | .flush sc inv => s.l1Maintain d c sc inv
  | .flushLine pa inv => s.l1Line d c (lineOf pa) inv
  | .prefetch pa => (s.l1Fill d c (lineOf pa) false).2

/-- Performs entry `n`; a word of its own that reaches its home may end waits (09_core_traps.md Table 9-10). -/
def State.performEntry (reg : State → Fin 4 → Nat → W64 → State) (s : State) (d : Fin 4) (c : Fin 68) (n : Nat) : State :=
  match (s.core d c).memq[n]? with
  | none => s
  | some m => (State.performKind reg (s.retireEntry d c n) d c ((s.core d c).memq.take n) m).noteHome s (.core d c)
    fun pa => m.kind.bytes.any fun b => s.ownPa b / 8 * 8 == pa

/-- Performs entry `n` if it may be performed. -/
def State.perform (reg : State → Fin 4 → Nat → W64 → State) (s : State) (d : Fin 4) (c : Fin 68) (n : Nat) : State :=
  if s.mayPerform d c n then State.performEntry reg s d c n else s

/-- Performs every entry that may be performed, from entry `i` on, looking at no more than `n` in all. -/
def State.sweep (reg : State → Fin 4 → Nat → W64 → State) (d : Fin 4) (c : Fin 68) : Nat → Nat → State → State
  | 0, _, s => s
  | n + 1, i, s =>
    if s.mayPerform d c i then State.sweep reg d c n i (State.performEntry reg s d c i) else State.sweep reg d c n (i + 1) s

/-- Performs entries from the head, at most `n`, while the head may be performed. At a save, and for a load that a trap waits for, no
schedule cycle passes: a release there does not wait for a VTBLD row that is set aside (09_core_traps.md R260, R262; DEDUCED, log 12). -/
def State.drainHead (reg : State → Fin 4 → Nat → W64 → State) (d : Fin 4) (c : Fin 68) : Nat → State → State
  | 0, s => s
  | n + 1, s => if s.ordered d c 0 then State.drainHead reg d c n (State.performEntry reg s d c 0) else s

/-- Register writes never come from an engine core (12_die.md R336). -/
def noReg (s : State) (_ : Fin 4) (_ : Nat) (_ : W64) : State := s

/-- The number of entries up to the last outstanding interlocked result. -/
def untilLastResult (q : List MemOp) : Nat :=
  q.length - (q.reverse.takeWhile fun m => m.kind.dst.isNone).length

/-- Waits for the outstanding loads of a core (09_core_traps.md R260): none while something they wait for cannot be performed yet. -/
def State.settleLoads (s : State) (d : Fin 4) (c : Fin 68) : Option State :=
  let s := State.sweep noReg d c (untilLastResult (s.core d c).memq) 0 s
  let t := State.drainHead noReg d c (untilLastResult (s.core d c).memq) s
  if (t.core d c).memq.any (fun m => m.kind.dst.isSome) then none else some t

/-- Performs the whole store queue (09_core_traps.md R262, step 4). -/
def State.settleAll (s : State) (d : Fin 4) (c : Fin 68) : Option State :=
  let t := State.drainHead noReg d c (s.core d c).memq.length s
  if (t.core d c).memq.isEmpty then some t else none

end Sys2Proof.Machine
end

