-- ==== Sys2Proof/Machine/Context.lean ====
section
/-! DEFINITION. The context save area: its image, saving a thread and taking it back (09_core_traps.md R260 to R267, R275; 14_package.md
R388). -/

namespace Sys2Proof.Machine

open Sys2Proof

/-- The 64-byte trap frame (Table 9-2). -/
def Frame.value (f : Frame) : Nat :=
  packFields [(1, f.cause), (1, f.slotMask), (1, f.kindf), (1, f.status), (4, f.arg), (8, f.baddr.toNat), (8, f.scyc % 2 ^ 48),
    (8, f.faddr), (8, f.caddr.toNat), (8, f.cscyc % 2 ^ 48), (2, f.snapGen), (2, f.tileGen), (2, f.srbCnt), (2, 0), (8, f.info)]

/-- The 32-byte statistics record (Table 9-9). -/
def StatRec.value (r : StatRec) : Nat :=
  packFields [(1, r.code), (1, r.source), (2, r.kind), (4, r.count), (8, r.baddr.toNat), (8, r.scyc % 2 ^ 48), (2, r.aux), (2, 0),
    (4, r.object)]

/-- DATA of an in-flight record: of a v, p or tile-row write, the lanes it writes (DEDUCED, log 31). -/
def Dst.data (x : Dst) (val en : Nat) : Nat :=
  match x with
  | .v _ => mergeLanes 8 256 0 val en
  | .tile _ _ => mergeLanes 8 256 0 val en
  | .p _ => mergeLanes 1 256 0 val en
  | _ => val

/-- BYTEEN of an in-flight record: the v, p and tile files have one (Table 9-4). -/
def Dst.enables (x : Dst) (en : Nat) : Nat :=
  match x with
  | .v _ => en
  | .p _ => en
  | .tile _ _ => en
  | _ => 0

/-- A pending write as an in-flight record (Table 9-4); `at0` is the cycle the offset counts from. -/
def Pend.value (w : Pend) (at0 : Nat) : Nat :=
  let en := match w.vt with
    | none => w.dst.enables w.en
    | some t =>
      match w.dst with
      | .vtbld _ => packFields [(16, t.vals), (2, t.cfg), (2, t.cbGen), (1, t.scale), (5, t.desc), (2, 0), (4, t.entry)]
      | _ => w.en
  packFields [(1, w.dst.file), (1, w.slot), (2, w.dst.index), (2, w.land - at0), (1, match w.latch with | some l => 32 + l.val | none => 0),
    (1, 0), (8, w.iss), (32, en), (256, w.dst.data w.val w.en), (16, 0)]

/-- A held interlocked result as an in-flight record. -/
def Held.value (h : Held) : Nat :=
  packFields [(1, h.dst.file), (1, h.slot), (2, h.dst.index), (2, 0xFFFF), (1, 0), (1, 0), (8, h.iss), (32, h.dst.enables h.en), (256, h.dst.data h.val h.en), (16, 0)]

/-- A pending BTOK write as an in-flight record; byte 8 of DATA gives the engine. -/
def Btok.value (b : Btok) : Nat :=
  packFields [(1, 4), (1, 0), (2, b.dst.val), (2, 0xFFFF), (1, 0), (1, 1), (8, b.iss), (32, 0), (8, b.base.toNat), (1, encEng b.eng),
    (247, 0), (16, 0)]

/-- The records of the shadow result buffer that a save would write now (R260, Table 9-4). -/
def Core.records (k : Core) : Nat := k.pend.length + k.srb.length + k.held.length + k.eng.btoks.length

/-- Outstanding interlocked loads that become records at a trap: those behind a fixed write of their register among `writes` (R34, R260). -/
def loadRecords (writes : List Pend) (l : List MemOp) : Nat :=
  (l.filter fun m => match m.kind.dst with
    | some x => writes.any (Held.behind ⟨x, 0, 0, m.iss, m.handler, m.slot⟩)
    | none => false).length

/-- The slot word and the extension word of an operation under a guard. -/
def slotWords (g : Guard) (o : Op) : Nat × Nat :=
  let e := Slot.encode ⟨g, o⟩
  (e.2.1, e.2.2.getD 0)

def MState.code : MState → Nat
  | .waiting => 0 | .started => 1 | .held _ _ _ _ => 2

/-- The rings a matrix operation names: HT, HW, HP, HS (06_lut_engine.md Table 7-3). -/
def opRings : MatrixOp → List (Fin 16)
  | .mlut ht hw _ _ _ _ => [ht, hw]
  | .mlutg ht hw _ _ _ _ hp hs => [ht, hw, hp, hs]
  | .mluts ht hw _ _ _ _ => [ht, hw]
  | .mlutsg ht hw _ _ _ _ hp hs => [ht, hw, hp, hs]
  | .mlutk ht hw _ _ _ _ => [ht, hw]
  | .mlutgk ht hw _ _ _ _ hp hs => [ht, hw, hp, hs]
  | .mmask ht => [ht]
  | _ => []

/-- A matrix queue record (14_package.md Table 14-12). The grant of MACLR and the lookup forms keeps the layout of Table 4-4. -/
def MatCmd.value (m : MatCmd) : Nat :=
  let w := slotWords m.g (.m m.op)
  let gen (i : Nat) : Nat := match (opRings m.op)[i]? with
    | some h => ((m.gens.find? fun x => x.1 == h).map fun x => x.2.toNat).getD 0
    | none => 0
  let grant := if m.gm = 0 then 0 else 2 ^ 30 + m.gn * 2 ^ 20 + m.gm * 2 ^ 13 + m.gk * 2 ^ 5
  packFields [(4, w.1), (4, w.2), (8, m.baddr.toNat), (8, m.iss), (8, m.cfg), (2, m.cbGen), (1, m.st.code), (1, 0), (2, gen 0), (2, gen 1),
    (2, gen 2), (2, gen 3), (4, 0), (8, grant), (8, 0), (256, m.vd), (64, 0)]

/-- The random state of a copy engine (08_core_memory.md R236). -/
def Core.rngY (k : Core) (y : Fin 2) : W64 := k.regs.rng.getD (2 + y.val) 0

/-- A copy queue record (Table 14-12). -/
def CopyCmd.value (y : CopyCmd) (u : Bool) (rng : Nat) (parked : Nat) : Nat :=
  let w := slotWords y.g (.y u y.op)
  let lock := match y.lock with
    | some r => r.1 + 2 ^ 32 * r.2
    | none => 2 ^ 64 - 1
  let started := match y.st with
    | .waiting => 0
    | .running => 1
    | .ended _ => 1
  packFields [(64, y.blk), (4, w.1), (1, started), (3, 0), (8, y.baddr.toNat), (8, y.iss), (4, y.chunk), (2, parked), (2, 0), (8, rng),
    (8, lock), (16, 0)]

/-- A spill record (Table 14-12). -/
def Parked.value (p : Parked) (order : Nat) : Nat := packFields [(8, p.line.toNat), (8, p.en.toNat), (64, p.data.toNat), (4, order), (44, 0)]

/-- Bytes of a ring in the save area (Table 9-5). -/
def Ring.value (g : Ring) : Nat :=
  let marks := g.marks.foldl (fun m e => m ||| 2 ^ (e.toNat % g.nslot)) 0
  packFields [(1, (if g.init then 1 else 0) + (if g.openT.isSome then 2 else 0)), (1, 0), (2, g.gen.toNat),
    (4, match g.openT with | some t => t.1.toNat | none => 0), (8, g.desc.toNat), (4, g.h.toNat), (4, g.c.toNat), (4, g.t.toNat),
    (4, g.a.toNat), (32, marks)]

/-- A pending COPY_ERROR record (Table 9-12). -/
def CopyErr.value (e : CopyErr) : Nat :=
  packFields [(1, 1), (1, e.status), (6, 0), (8, e.caddr.toNat), (8, e.cscyc), (4, e.cplOff), (4, 0)]

/-- The running token of an engine: the worst over the commands of its open window that have retired (04_control_scalar.md R102). -/
def Engines.token (e : Engines) (g : Eng) (win : Nat) : Nat :=
  (e.toks.filter fun t => t.1 == g && t.2.1 == win).foldl (fun m t => Nat.max m t.2.2) 0

def engIdx (g : Eng) : Fin 5 :=
  match g with
  | .v0 => 0 | .v1 => 1 | .m => 2 | .y0 => 3 | .y1 => 4

def Engines.runTok (e : Engines) (g : Eng) : Nat := e.token g e.win[engIdx g]

/-- Reads of an engine core's CSRs (09_core_traps.md Table 9-11) that are plain state. -/
def Csrs.statCtl (c : Csrs) : Nat := if c.statEn then 1 else 0

/-- Control block (Table 9-6). STATE is given. -/
def Core.controlBlock (k : Core) (state : Nat) : Nat :=
  let r := k.regs
  let v (l : List Nat) (w : Nat) : Nat × Nat := (w * l.length, packElems (8 * w) l)
  let toks := [Eng.v0, .v1, .m, .y0, .y1].map fun g => k.eng.runTok g
  packFields [(4, 1), (1, match k.thr.gen with | .g1 => 1 | .g2 => 2 | .g3 => 3), (1, state),
    (1, (if k.handler then 1 else 0) + (if k.skipBp then 2 else 0) + (if k.run = .halted then 4 else 0)), (1, 0),
    (8, k.pc.toNat), (8, k.now % 2 ^ 48), (2, r.vl), (2, k.records),
    (1, k.eng.mq.length), (1, (k.eng.yq[0]).length), (1, (k.eng.yq[1]).length),
    (1, (if r.sk[0] then 2 else 0) + (if r.sk[1] then 4 else 0) + (if r.sk[2] then 8 else 0)),
    v (r.sh.toList.map (·.toNat)) 8, v (r.lc.toList.map (·.toNat)) 4, v (r.f.toList.map (·.toNat)) 4, (8, r.cbCfg.toNat),
    v (r.cbVal.toList.map (·.toNat)) 4, (2, r.cbGen.toNat), v (r.sl.toList.map (·.toNat)) 1, (4, packElems 2 toks),
    v (r.rng.toList.map (·.toNat)) 8, (8, k.eng.retired.toNat), (8, k.csr.tvec.toNat), (4, k.csr.tframe.toNat), (4, k.csr.tdeleg.toNat),
    (8, k.csr.tepc.toNat), (4, k.csr.statCtl), (4, k.csr.waitMin.toNat), (8, k.csr.statBase.toNat), (4, k.csr.statSize.toNat),
    (4, k.csr.statHead.toNat), (4, k.csr.statTail.toNat), (4, k.csr.statLost.toNat), (8, if k.csr.tctl then 1 else 0), (24, 0)]

/-- The results of the elements that a started lookup has completed, at 4 × (512 × i + n), then PDONE and the stream counter at the start of
the element that follows: draw index and position (R262, Table 9-5; 06_lut_engine.md R187; four bytes each: DEDUCED, log 69). -/
def Core.lutRegions (k : Core) : List (Nat × Nat × Nat) :=
  match k.eng.mq with
  | [] => []
  | m :: _ =>
    match lutForm m.op with
    | none => []
    | some f =>
      if m.st ≠ .started then []
      else
        let j := (k.readTiles m).job f
        let n := m.done.length
        let draw := if f.seeded && decide (n < j.rows * j.cols) then recDraw (j.seedRec (n % j.cols) 0) else 0
        (m.done.map fun e => (0x14000 + 4 * e.place, 4, e.val)) ++
          [(0x1C000, 16, packFields [(4, n), (4, draw), (4, 0), (4, 0)])]

/-- Regions of the save area below the scratchpad: (offset, bytes, value) (Table 9-5). -/
def Core.saveRegions (k : Core) (state : Nat) (f nested : Nat) : List (Nat × Nat × Nat) :=
  let r := k.regs
  let regs (a w : Nat) (l : List Nat) : List (Nat × Nat × Nat) := l.zipIdx.map fun p => (a + w * p.2, w, p.1)
  let copyq (y : Fin 2) (u : Bool) : List (Nat × Nat × Nat) :=
    (k.eng.yq[y]).zipIdx.map fun p => (0x1000 + 4096 * y.val + 128 * p.2, 128,
      p.1.value u (p.1.rng.getD (k.rngY y)).toNat ((k.eng.spill[y]).filter fun w => w.cmd == p.1.id).length)
  let spill (y : Fin 2) : List (Nat × Nat × Nat) :=
    (k.eng.spill[y]).zipIdx.map fun p => (0x3000 + 8192 * y.val + 128 * p.2, 128, p.1.value p.2)
  let srb := ((k.srb.map fun w => w.value k.cyc) ++ (k.pend.map fun w => w.value k.now) ++ k.held.map Held.value ++ k.eng.btoks.map Btok.value)
  [(0x00000, 256, k.controlBlock state), (0x00100, 64, f), (0x00140, 64, nested)] ++
    regs 0x00180 8 (k.csr.bpVal.toList.map (·.toNat)) ++ regs 0x001A0 4 (k.csr.bpCtl.toList.map (·.toNat)) ++
    regs 0x001B0 8 (k.csr.wpAddr.toList.map (·.toNat)) ++ regs 0x001D0 4 (k.csr.wpCtl.toList.map (·.toNat)) ++
    regs 0x00200 8 (r.s.toList.map (·.toNat)) ++ regs 0x00300 8 (r.a.toList.map (·.toNat)) ++ regs 0x00380 8 (r.b.toList.map (·.toNat)) ++
    regs 0x003C0 8 (r.hbS.toList.map (·.toNat)) ++ regs 0x003E0 8 (r.hbA.toList.map (·.toNat)) ++
    regs 0x00400 32 (r.p.toList.map (·.toNat)) ++ regs 0x00500 64 (k.rings.toList.map Ring.value) ++ [(0x00900, 528, k.eng.mask)] ++
    regs 0x00D00 32 ((k.eng.errs[0]).map CopyErr.value) ++ regs 0x00D80 32 ((k.eng.errs[1]).map CopyErr.value) ++
    [(0x00E00, 8, (if k.eng.lostErr[0] then 1 else 0) + (if k.eng.lostErr[1] then 2 else 0))] ++
    regs 0x00E40 4 (k.rings.toList.map fun g => match g.openT with | some t => t.2.1 + 2 ^ 16 * t.2.2 | none => 0) ++
    copyq 0 false ++ copyq 1 true ++ spill 0 ++ spill 1 ++ regs 0x07000 256 (r.v.toList.map (·.toNat)) ++
    regs 0x09000 256 (r.bp.toList.map (·.toNat)) ++ regs 0x09800 384 (k.eng.mq.map MatCmd.value) ++ regs 0x0B000 320 srb ++
    regs 0x10000 256 (r.x.toList.flatMap fun x => x.toList.map (·.toNat)) ++ k.lutRegions ++
    (k.eng.acc.map fun e => (0x20000 + 4 * e.1, 4, e.2.toNat)) ++
    [(0x40000, 16384, k.full.foldl (fun m w => m + 2 ^ w) 0)]

/-- Nonzero bytes of a value at an address, by rising address. -/
def nonzeroBytes (a : Nat) (v : Nat) : Nat → Bytes
  | 0 => []
  | n + 1 => if v = 0 then [] else
    let b := BitVec.ofNat 8 v
    if b = 0 then nonzeroBytes (a + 1) (v / 256) n else (a, b) :: nonzeroBytes (a + 1) (v / 256) n

/-- The save area's nonzero bytes at a base address, by rising address. -/
def Core.saveImage (k : Core) (base state f nested : Nat) : Bytes :=
  ((k.saveRegions state f nested).flatMap fun x => nonzeroBytes (base + x.1) x.2.2 x.2.1) ++
    k.spad.map fun x => (base + 0x80000 + x.1, x.2)

/-- Replaces a range of a memory by listed bytes. -/
def replaceRange (m : Bytes) (lo len : Nat) (new : Bytes) : Bytes :=
  ((m.filter fun x => decide (x.1 < lo)) ++ new ++ m.filter fun x => decide (lo + len ≤ x.1)).foldr (fun x m => sset m x.1 x.2) []

/-- Whether a pin range of a die is enabled. -/
def Die.pinning (x : Die) : Bool := x.hwpin.toList.any fun v => v.getLsbD 63

/-- The lines of a save area, ascending: those that hold something before or after it is written, and all of them where they may be pinned. -/
def State.saveLines (s : State) (base : Nat) (img : Bytes) : List Nat :=
  if s.dies.toList.any Die.pinning then (List.range 0x4000).map fun i => base + 64 * i
  else
    let lines (m : Bytes) : List Nat :=
      (m.filter fun x => decide (base ≤ x.1) && decide (x.1 < base + 0x100000)).foldr (fun x l => insertNat (lineOf x.1) l) []
    (lines s.mem).foldr insertNat (lines img)

/-- One line of a save area enters its Heartwood slice (12_die.md R324, R326). -/
def State.saveLine (img : Bytes) (s : State) (a : Nat) : State :=
  { (s.touchHome a).heartRoom a with mem := writeLE s.mem a 64 (readLE img a 64) }

/-- Writes the 1 MB save area at its home, line by line; every slice and every bridge stop drops the lines of the range (R263). -/
def State.putSave (s : State) (base : Nat) (img : Bytes) : State :=
  let inR (a : Nat) : Bool := decide (base ≤ a) && decide (a < base + 0x100000)
  let fix (x : L2Slice) : L2Slice := { x with lines := x.lines.filter fun l => !inR l.addr }
  if s.hasMem base then
    let t := (s.saveLines base img).foldl (State.saveLine img) s
    { s with mem := replaceRange s.mem base 0x100000 img, poison := s.poison.filter fun a => !inR a,
             fresh := t.fresh, dram := t.dram, dramPoison := t.dramPoison,
             dies := (if s.dies.toList.any Die.pinning then t.dies else s.dies).map fun x =>
               { x with l2 := x.l2.map fix, bridge := x.bridge.filter fun w => !inR w.line } }
  else s

/-- CTXID (Table 9-11): record index, core, die. -/
def ctxId (d : Fin 4) (c : Fin 68) (k : Core) : Nat := k.thr.idx + 2 ^ 12 * c.val + 2 ^ 18 * d.val

/-- What an attempt to write the head statistics record comes to (R275): written; nothing to write or no room; it fails; its translation has
not come. -/
inductive StatWrite where
  | done (s : State)
  | full
  | failed (s : State)
  | late (s : State)

/-- One attempt to write the head statistics record to its buffer, in memory or behind the PCIe window (R275). -/
def State.statWrite (s : State) (d : Fin 4) (c : Fin 68) : StatWrite :=
  let k := s.core d c
  match k.stats with
  | [] => .full
  | r :: l =>
    if !k.csr.statEn || decide ((k.csr.statTail + 1 - k.csr.statHead).toNat > k.csr.statSize.toNat) then .full
    else
      let va := k.csr.statBase + BitVec.ofNat 64 (32 * (k.csr.statTail.toNat % k.csr.statSize.toNat))
      let tail (s : State) : State := s.modCore d c fun k =>
        ({ k with stats := l, csr := { k.csr with statTail := k.csr.statTail + 1 } }).postLost
      match if canonical va then s.locate (s.who d c) .write va 32 else (.error (.reason 0), s) with
      | (.ok (x, .mem), s) => .done (tail (((s.releaseLines d c .d).expose d c x.pa).writeHome (cellsOf x.pa r.value 32)))
      | (.ok (_, .pcie), s) => .done (tail (s.releaseLines d c .d))
      | (.ok (_, .fabric), s) => .failed s
      | (.ok (_, .reg), s) => .failed s
      | (.error .late, s) => .late s
      | (.error (.refused q), s) => .failed (s.logRefused q)
      | (.error (.fabRefused l), s) => .failed (l.foldl State.logRefused s)
      | (.error (.reason _), s) => .failed s
      | (.error .fabNoRoute, s) => .failed s
      | (.error .fabUnlinked, s) => .failed s
      | (.error (.logged _), s) => .failed s

/-- The statistics queue is written at a save: records that find the buffer full are counted lost (R262, step 6); one whose write fails
stays at the head, with those behind it, for the thread's restore (R275). -/
def State.statFlush (s : State) (d : Fin 4) (c : Fin 68) : Nat → State
  | 0 => s
  | n + 1 =>
    match s.statWrite d c with
    | .done s => State.statFlush s d c n
    | .failed s => s
    | .late s => s
    | .full => s.modCore d c fun k =>
        if k.csr.statEn then { k with stats := [], csr := { k.csr with statLost := k.csr.statLost + BitVec.ofNat 32 k.stats.length } } else k

/-- A save waits for the translations of its own writes. -/
def State.statFlushAll (s : State) (d : Fin 4) (c : Fin 68) : State :=
  { ({ s with late := false }).statFlush d c ((s.core d c).stats.length + 1) with late := s.late }

/-- OUTCORE (13_scheduling.md Table 13-1). -/
def outCore (d : Fin 4) (c : Fin 68) : Nat := c.val + 256 * d.val

/-- A core that holds no thread: its scratchpad keeps its bytes (08_core_memory.md R233), its caches and its debug block stay. -/
def Core.vacate (k : Core) : Core :=
  { Core.start with spad := k.spad, full := k.full, l1 := k.l1, tlb := k.tlb, tlbOld := k.tlbOld, code := k.code, dbg := { k.dbg with stepping := false, stepOver := none } }

/-- Saves a thread and releases its core (R262): none while the store queue cannot be performed yet. `st` is the record's new state,
`state` the STATE byte, `f` the frame, filled in with the resume point here. The thread's own dirty lines go to their homes so that it
finds them wherever it resumes (DEDUCED, log 15). A cause that was due is the one now taken, or is gone with it (R258, R266, R272). -/
def State.saveContext (s : State) (d : Fin 4) (c : Fin 68) (st : NrState) (state : Nat) (f : Frame) : Option State :=
  match s.settleAll d c with
  | none => none
  | some s =>
    let s := (s.releaseLines d c .p).statFlushAll d c
    let k := (s.core d c).stopLut
    let k := { k with preempt := false, waitc := none, owed := none, answers := [], pc := if k.run = Run.halted then k.haltAddr else k.pc }
    let f := { f with baddr := k.pc, scyc := k.now, srbCnt := k.records }
    let nested := if f.kindf.testBit 5 then k.frame else 0
    let s := s.putSave k.thr.csa (k.saveImage k.thr.csa state f.value nested)
    let r := (s.die d).recd k.thr.idx
    let s := s.setRec d { r with st := st, lastCore := some c, saved := some k }
    let s := (s.setCore d c k.vacate).modDie d fun x => { x with passDue := true }
    if st = .trapped then some (s.postEvent d ⟨1, f.cause, k.thr.idx, outCore d c, 0⟩) else some s

/-- Elements of `w` bytes from an offset of a save area. -/
def areaElems (m : Bytes) (a w n : Nat) : List Nat := (List.range n).map fun i => readLE m (a + w * i) w

def areaVec {b : Nat} (m : Bytes) (a w n : Nat) : Vector (BitVec b) n := Vector.ofFn fun i => BitVec.ofNat b (readLE m (a + w * i.val) w)

/-- The entries of a memory within a range, counted from its start. -/
def subRange (m : Bytes) (lo len : Nat) : Bytes :=
  (m.filter fun x => decide (lo ≤ x.1) && decide (x.1 < lo + len)).map fun x => (x.1 - lo, x.2)

/-- Bit numbers of the ones of the bytes of a range. -/
def bitsOf (m : Bytes) : List Nat := m.flatMap fun x => (List.range 8).filterMap fun i => if x.2.getLsbD i then some (8 * x.1 + i) else none

/-- The operation that the words of a queue record hold. -/
def slotOf (p : Profile) (k : Fin 8) (w x : Nat) : Option Slot :=
  match decodeFor p k w none with
  | .ok y => some y
  | .error _ => match decodeFor p k w (some x) with
    | .ok y => some y
    | .error _ => none

/-- Field of `n` bytes at an offset of a record. -/
def recAt (r off n : Nat) : Nat := r / 2 ^ (8 * off) % 2 ^ (8 * n)

/-- A matrix command from its record, with what the record has no place for, such as the failure of a held one, as saved (R265;
14_package.md Table 14-12). -/
def MatCmd.ofRecord (m : MatCmd) (p : Profile) (r : Nat) : MatCmd :=
  let f := recAt r
  let o : Guard × MatrixOp := match slotOf p 5 (f 0 4) (f 4 4) with
    | some ⟨g, .m o⟩ => (g, o)
    | _ => (m.g, m.op)
  let grant := f 48 8
  { m with
    g := o.1, op := o.2, baddr := BitVec.ofNat 64 (f 8 8), iss := f 16 8, cfg := f 24 8, cbGen := f 32 2,
    gens := m.gens.map fun x => match (opRings o.2).findIdx? fun h => h == x.1 with
      | some i => (x.1, BitVec.ofNat 12 (f (36 + 2 * i) 2))
      | none => x
    st := if f 34 1 = 1 then .started else if f 34 1 = 2 ∧ m.st ≠ .started then m.st else .waiting
    gm := shM grant, gn := shN grant, gk := shKB grant, vd := f 64 256 }

/-- A copy command from its record, with what the record has no place for as saved. -/
def CopyCmd.ofRecord (y : CopyCmd) (p : Profile) (u : Bool) (r : Nat) : CopyCmd :=
  let f := recAt r
  let o : Guard × CopyOp := match slotOf p (if u then 7 else 6) (f 64 4) 0 with
    | some ⟨g, .y _ o⟩ => (g, o)
    | _ => (y.g, y.op)
  { y with
    g := o.1, op := o.2, blk := f 0 64, baddr := BitVec.ofNat 64 (f 72 8), iss := f 80 8, chunk := f 88 4,
    st := if f 68 1 = 0 then .waiting else match y.st with
      | .waiting => .running
      | .running => .running
      | .ended n => .ended n
    rng := y.rng.map fun _ => BitVec.ofNat 64 (f 96 8)
    lock := if f 104 8 = 2 ^ 64 - 1 then none else some (f 104 4, f 108 4)
    page := none }

/-- A parked write from its record. -/
def Parked.ofRecord (w : Parked) (r : Nat) : Parked :=
  { w with line := BitVec.ofNat 64 (recAt r 0 8), en := BitVec.ofNat 64 (recAt r 8 8), data := BitVec.ofNat 512 (recAt r 16 64) }

/-- The destination of DFILE and INDEX (Table 9-4). -/
def dstOf (file i : Nat) : Option Dst :=
  match file with
  | 0 => if i < 32 then some (.s (Fin.ofNat 32 i)) else none
  | 1 => if i < 16 then some (.a (Fin.ofNat 16 i)) else none
  | 2 => if i < 32 then some (.v (Fin.ofNat 32 i)) else none
  | 3 => if i < 8 then some (.p (Fin.ofNat 8 i)) else none
  | 4 => if i < 8 then some (.b (Fin.ofNat 8 i)) else none
  | 5 => if i < 4 then some (.lc (Fin.ofNat 4 i)) else none
  | 6 => if 1 ≤ i ∧ i < 4 then some (.sk (Fin.ofNat 3 (i - 1))) else none
  | 7 => if i < 4 then some (.sh (Fin.ofNat 4 i)) else none
  | 8 => if i < 4 then some (.f (Fin.ofNat 4 i)) else none
  | 9 => if i < 64 then some (.tile (Fin.ofNat 4 (i / 16)) (Fin.ofNat 16 (i % 16))) else none
  | 10 => if i < 5 then some (.cb (Fin.ofNat 5 i)) else none
  | 11 => if i < 2 then some (.sl (i == 1)) else none
  | 12 => if i < 2048 then some (.csr i) else none
  | 13 => if i < 16 then some (.vtbld (Fin.ofNat 16 i)) else none
  | _ => none

/-- What an in-flight record of a VTBLD write carries in BYTEEN (Table 9-4), with the generation of its ring. -/
def vtbldOf (r ringGen : Nat) : VtbldArgs := ⟨recAt r 32 2, recAt r 16 16, recAt r 34 2, recAt r 36 1, recAt r 37 5, recAt r 44 4, ringGen⟩

/-- The latch that a record names. -/
def latchOf (n : Nat) : Option (Fin 8) := if 32 ≤ n ∧ n < 40 then some (Fin.ofNat 8 (n - 32)) else none

/-- A pending write from its record, whose offset counts from cycle `at0`, with what the record has no place for as saved. -/
def Pend.ofRecord (w : Pend) (at0 r : Nat) : Pend :=
  let dst := (dstOf (recAt r 0 1) (recAt r 2 2)).getD w.dst
  let vt := match dst, w.vt with
    | .vtbld _, some t => some (vtbldOf r t.ringGen)
    | _, x => x
  { w with
    land := at0 + recAt r 4 2, slot := recAt r 1 1, iss := recAt r 8 8, dst := dst, val := recAt r 48 256, vt := vt
    en := match dst with
      | .v _ => recAt r 16 32 + (if w.en.testBit 256 then nibbleOnly else 0)
      | .p _ => recAt r 16 32
      | .tile _ _ => recAt r 16 32
      | _ => w.en
    latch := latchOf (recAt r 6 1) }

/-- An interlocked result from its record. -/
def Held.ofRecord (h : Held) (r : Nat) : Held :=
  let dst := (dstOf (recAt r 0 1) (recAt r 2 2)).getD h.dst
  { h with slot := recAt r 1 1, iss := recAt r 8 8, dst := dst, val := recAt r 48 256, en := match dst with
      | .v _ => recAt r 16 32
      | .p _ => recAt r 16 32
      | .tile _ _ => recAt r 16 32
      | _ => h.en }

/-- A pending BTOK write from its record. -/
def Btok.ofRecord (b : Btok) (r : Nat) : Btok :=
  { b with dst := Fin.ofNat 8 (recAt r 2 2), base := BitVec.ofNat 64 (recAt r 48 8), iss := recAt r 8 8
           eng := ([Eng.v0, .v1, .m, .y0, .y1][recAt r 56 1]?).getD b.eng }

/-- A ring from the save area: its 64 bytes and its open tile's COLS and CBGEN (Table 9-5). Entries finished and not yet pushed have no place
there and are as saved. -/
def Ring.ofArea (g : Ring) (r t : Nat) : Ring :=
  let f := recAt r
  let w (o : Nat) : BitVec 32 := BitVec.ofNat 32 (f o 4)
  let x : Ring := { g with
    init := (f 0 1).testBit 0, gen := BitVec.ofNat 12 (f 2 2), desc := BitVec.ofNat 64 (f 8 8), h := w 16, c := w 20, t := w 24, a := w 28
    openT := if (f 0 1).testBit 1 then some (w 4, recAt t 0 2, recAt t 2 2) else none }
  { x with marks := ((List.range (Nat.min x.nslot (x.a - x.t).toNat)).map fun i => x.t + BitVec.ofNat 32 i).filter fun e =>
      (f 32 32).testBit (e.toNat % x.nslot) }

/-- The pending COPY_ERROR causes of one engine (Table 9-12). -/
def copyErrsOf (l : List Nat) : List CopyErr :=
  (l.filter fun r => recAt r 0 1 == 1).map fun r => ⟨recAt r 1 1, BitVec.ofNat 64 (recAt r 8 8), recAt r 16 8, recAt r 24 4⟩

/-- The engines' queues from the save area, in their saved order; a stopped lookup resumes at element PDONE (R266). -/
def Engines.ofArea (x : Engines) (p : Profile) (m : Bytes) : Engines :=
  let f (o n : Nat) : Nat := readLE m o n
  let pdone := f 0x1C000 4
  let elem (e : LutElem) : LutElem := { e with val := f (0x14000 + 4 * e.place) 4 }
  let mat (c : MatCmd) (i : Nat) : MatCmd :=
    let c := c.ofRecord p (f (0x9800 + 384 * i) 384)
    { c with done := (c.done.take pdone).map elem }
  let copy (y : Fin 2) : List CopyCmd := (x.yq[y]).zipIdx.map fun c => c.1.ofRecord p (y == 1) (f (0x1000 + 4096 * y.val + 128 * c.2) 128)
  let spill (y : Fin 2) : List Parked := (x.spill[y]).zipIdx.map fun w => w.1.ofRecord (f (0x3000 + 8192 * y.val + 128 * w.2) 128)
  let errs (y : Nat) : List CopyErr := copyErrsOf ((List.range 4).map fun i => f (0xD00 + 128 * y + 32 * i) 32)
  let tok (g : Eng) : List (Eng × Nat × Nat) :=
    let n := f 0x7C 4 / 4 ^ encEng g % 4
    (x.toks.filter fun t => t.1 == g && t.2.1 != x.win[engIdx g]) ++ (if n = 0 then [] else [(g, x.win[engIdx g], n)])
  { x with
    mq := x.mq.zipIdx.map fun c => mat c.1 c.2
    yq := Vector.ofFn copy, spill := Vector.ofFn spill, errs := Vector.ofFn fun y => errs y.val
    lostErr := Vector.ofFn fun y => (f 0xE00 1).testBit y.val
    toks := [Eng.v0, .v1, .m, .y0, .y1].flatMap tok }

/-- Registers, CSRs, tiles, accumulators, mask, scratchpad and full/empty bits from an image of the save area (R266, R269). -/
def Core.restoreRegs (k : Core) (m : Bytes) : Core :=
  let f (o n : Nat) : Nat := readLE m o n
  let r := k.regs
  let scyc := f 0x10 8 % 2 ^ 48
  let regs : Regs := { r with
    s := areaVec m 0x200 8 32, a := areaVec m 0x300 8 16, b := areaVec m 0x380 8 8, hbS := areaVec m 0x3C0 8 4, hbA := areaVec m 0x3E0 8 2,
    p := (areaVec m 0x400 32 8 : Vector Pred 8).set 0 (BitVec.allOnes 256), v := areaVec m 0x7000 256 32, bp := areaVec m 0x9000 256 8,
    x := Vector.ofFn fun i => areaVec m (0x10000 + 4096 * i.val) 256 16, vl := if 1 ≤ f 0x18 2 ∧ f 0x18 2 ≤ 256 then f 0x18 2 else r.vl,
    sk := Vector.ofFn fun i => (f 0x1F 1).testBit (i.val + 1), sh := areaVec m 0x20 8 4, lc := areaVec m 0x40 4 4, f := areaVec m 0x50 4 4,
    cbCfg := BitVec.ofNat 16 (f 0x60 8), cbVal := areaVec m 0x68 4 4, cbGen := BitVec.ofNat 16 (f 0x78 2), sl := areaVec m 0x7A 1 2,
    rng := areaVec m 0x80 8 4 }
  let size := BitVec.ofNat 32 (f 0xD0 4)
  let base := BitVec.ofNat 64 (f 0xC8 8)
  let csr : Csrs := {
    tctl := (f 0xE0 8).testBit 0, tvec := BitVec.ofNat 64 (f 0xA8 8), tframe := BitVec.ofNat 19 (f 0xB0 4 / 64 * 64),
    tdeleg := BitVec.ofNat 32 (f 0xB4 4) ||| 0x00888000, tepc := BitVec.ofNat 64 (f 0xB8 8),
    statEn := (f 0xC0 4).testBit 0 && statSizeOk size, waitMin := BitVec.ofNat 32 (f 0xC4 4), statBase := base, statSize := size,
    statHead := BitVec.ofNat 32 (f 0xD4 4), statTail := BitVec.ofNat 32 (f 0xD8 4), statLost := BitVec.ofNat 32 (f 0xDC 4),
    bpVal := areaVec m 0x180 8 4, bpCtl := (areaVec m 0x1A0 4 4).map (· &&& 0x7), wpAddr := areaVec m 0x1B0 8 4
    wpCtl := (areaVec m 0x1D0 4 4).map (· &&& 0x3F1F) }
  { k with
    pc := BitVec.ofNat 64 (f 0x08 8), cyc := if k.handler then k.cyc else scyc, hcyc := if k.handler then scyc else k.hcyc,
    skipBp := true, regs := regs, csr := csr, statStuck := false,
    spad := replaceRange [] 0 0 (subRange m 0x80000 0x80000), full := bitsOf (subRange m 0x40000 0x4000),
    eng := { k.eng with retired := BitVec.ofNat 64 (f 0xA0 8), acc := (areaAcc (subRange m 0x20000 0x20000)), mask := f 0x900 528 } }
where
  /-- Accumulator elements from their bytes. -/
  areaAcc (b : Bytes) : List (Nat × BitVec 32) :=
    b.foldr (fun x l =>
      match l with
      | (i, v) :: t => if i = x.1 / 4 then (i, v ||| (BitVec.setWidth 32 x.2 <<< (8 * (x.1 % 4)))) :: t
          else (x.1 / 4, BitVec.setWidth 32 x.2 <<< (8 * (x.1 % 4))) :: l
      | [] => [(x.1 / 4, BitVec.setWidth 32 x.2 <<< (8 * (x.1 % 4)))]) []

/-- What a restore takes from the save area (R266, R267): all of Table 9-5, with what the area has no place for as saved (DEDUCED, log 31).
The shadow result buffer's writes are pending again, and interlocked records land before the resume bundle (R261). A return to thread mode
runs the checks of held commands again; one to handler mode leaves them held until RFT (06_lut_engine.md R181; 16_prog_lut.md R421). -/
def Core.restoreFrom (k : Core) (m : Bytes) : Core :=
  let f (o n : Nat) : Nat := readLE m o n
  let handler := (f 6 1).testBit 0
  let halted := (f 6 1).testBit 2
  let t := ({ k with handler := handler }).restoreRegs m
  let a := k.srb.length
  let b := a + k.pend.length
  let c := b + k.held.length
  let recd (i : Nat) : Nat := f (0xB000 + 320 * i) 320
  let eng := t.eng.ofArea ⟨match f 4 1 with | 1 => .g1 | 2 => .g2 | _ => .g3, false⟩ m
  ({ t with
    run := if halted then .halted else .running
    haltAddr := if halted then t.pc else k.haltAddr
    cyc := if handler then f 0x150 8 % 2 ^ 48 else t.cyc
    frame := if handler then f 0x140 64 else k.frame
    thr := { k.thr with gen := match f 4 1 with | 1 => .g1 | 2 => .g2 | _ => .g3 }
    rings := Vector.ofFn fun h => (k.rings[h]).ofArea (f (0x500 + 64 * h.val) 64) (f (0xE40 + 4 * h.val) 4)
    srb := k.srb.zipIdx.map fun w => w.1.ofRecord (if handler then f 0x150 8 % 2 ^ 48 else t.cyc) (recd w.2)
    pend := k.pend.zipIdx.map fun w => w.1.ofRecord t.now (recd (a + w.2))
    held := k.held.zipIdx.map fun h => h.1.ofRecord (recd (b + h.2))
    eng := { (if handler then eng else eng.recheck true) with
      btoks := k.eng.btoks.zipIdx.map fun w => w.1.ofRecord (recd (c + w.2)) } } : Core).landHeld

/-- Whether a restore is refused for LAYOUT or GEN (R266). -/
def restoreRefused (m : Bytes) : Bool := readLE m 0 4 != 1 || readLE m 4 1 == 0 || decide (readLE m 4 1 > 3)

end Sys2Proof.Machine
end

