-- ==== Sys2Proof/Machine/Ops.lean ====
section
/-! DEFINITION. Taking a trap and returning from one, on engine cores and Taproot cores, and freezing a core
(09_core_traps.md R252 to R261, R268, R274; 14_package.md R371, R372). -/

namespace Sys2Proof.Machine

open Sys2Proof

/-- A trap to take: the fields of Table 9-2 that its cause fills, where an SCALL goes, and what a Taproot core puts in TRBAD. -/
structure Trap where
  cause : Cause
  mask : Nat := 0
  eng : Nat := 7
  async : Bool := false
  after : Bool := false
  more : Bool := false
  lostErr : Bool := false
  status : Nat := 0
  arg : Nat := 0
  faddr : Nat := 0
  bad : Nat := 0
  caddr : W64 := 0
  cscyc : Nat := 0
  snap : Nat := 0
  tile : Nat := 0
  info : Nat := 0
  toTaproot : Bool := false
  deriving DecidableEq, Repr

/-- KINDF of Table 9-2. -/
def Trap.kindf (t : Trap) (nested : Bool) : Nat :=
  t.eng + (if t.async then 8 else 0) + (if t.after then 16 else 0) + (if nested then 32 else 0) + (if t.more then 64 else 0) +
    (if t.lostErr then 128 else 0)

/-- The pending writes that a trap taken now would record, one each (R260). -/
def Core.inFlight (k : Core) : Nat := k.records + loadRecords (k.pend ++ k.srb) k.memq

/-- The frame of a trap whose resume bundle is at the core's pc and issues at its current cycle (R255, R256). -/
def Trap.frame (t : Trap) (k : Core) : Frame :=
  ⟨t.cause.code, t.mask, t.kindf k.handler, t.status, t.arg, k.pc, k.now, t.faddr, t.caddr, t.cscyc, t.snap, t.tile, k.inFlight, t.info⟩

/-- Whether the on-core handler takes a trap (R253); TDELEG holds ones for ACCESS, PREEMPT and LEGACY. -/
def Core.handlerTakes (k : Core) (t : Trap) : Bool :=
  !k.handler && k.csr.tvec != 0 && !(k.csr.tdeleg.getLsbD t.cause.code) && !t.toTaproot

/-- Entry to the on-core handler (R257): pending writes go to the shadow result buffer with their landing cycles, the frame to TFRAME.
`counted` says that the resume bundle's STALL is counted in its cycle (R256). -/
def Core.enterHandler (k : Core) (f : Frame) (counted : Bool) : Core :=
  { k.setSpad (writeLE k.spad k.csr.tframe.toNat 64 f.value) with
    frame := f.value
    owed := none
    csr := { k.csr with tepc := f.baddr }
    srb := k.pend
    pend := []
    handler := true
    hcyc := 0
    pc := k.csr.tvec
    delay := 0
    stallTaken := false
    resumeTaken := counted
    answers := []
    waitc := none }

/-- A trap on a Taproot core (14_package.md R372). Writes on their way are saved with their remaining offsets (01_bundles.md R44). `counted` says
that the resume bundle's STALL is counted. -/
def Core.enterSupervisor (k : Core) (cause : W64) (bad : Nat) (counted : Bool) : Core :=
  { k with
    tap := { k.tap with
      epc := k.pc, cause := cause, bad := BitVec.ofNat 64 bad, psm := k.tap.sm, pie := k.tap.ie, ie := false, sm := true
      saved := ⟨k.pend.map fun w => { w with land := w.land - k.now }, k.held, counted, k.now⟩ :: k.tap.saved }
    pend := []
    held := []
    pc := k.tap.vec
    delay := 0
    stallTaken := false
    answers := []
    waitc := none }

/-- The core waits: for what, and one clock cycle more (R277). Of a bundle that waits for one object after another, the record counts the cycles
of all its waits and names the last object (DEDUCED, log 33). Who has ended what it still waits for stays named. A wait in LWAIT for the same
word counts from when it began (13_scheduling.md R356). -/
def Core.wait (k : Core) (w : WaitInfo) : Core :=
  { k with waitc := some (match k.waitc with
      | some x => { w with
          cycles := x.cycles + 1
          since := if x.lwait == w.lwait then x.since else w.since
          agent := if w.ends.isSome && x.ends == w.ends then x.agent else w.agent }
      | none => { w with cycles := 1 }) }

/-- A wait for memory before a trap is taken. -/
def memWait : WaitInfo := { kind := 7, object := 0, agent := 0 }

/-- Takes a trap at the boundary the core stands at: every cycle before the resume bundle's issue has passed. While loads or stores that
it must wait for cannot be performed yet (R260, R262), the core waits. -/
def State.takeTrap (s : State) (d : Fin 4) (c : Fin 68) (t : Trap) (counted : Bool) : State :=
  let k := s.core d c
  if isTaproot c then s.setCore d c (k.enterSupervisor (BitVec.ofNat 64 t.cause.code) t.bad counted)
  else
    match s.settleLoads d c with
    | none => s.setCore d c (k.wait memWait)
    | some s =>
      let k := s.core d c
      if k.handlerTakes t then s.setCore d c (k.enterHandler (t.frame k) counted)
      else
        let s := s.setCore d c { k with stallTaken := counted, resumeTaken := if k.handler then k.resumeTaken else counted, delay := 0 }
        let st := if t.cause = .preempt then (NrState.ready, 1) else (NrState.trapped, 2)
        match s.saveContext d c st.1 st.2 (t.frame k) with
        | none => s.setCore d c (k.wait memWait)
        | some s => s

/-- Takes the cause that is due; while it waits it stays due (R252, R258, R272). -/
def State.takeOwed (s : State) (d : Fin 4) (c : Fin 68) (o : Owed) (counted : Bool) : State :=
  let t : Trap := { cause := o.cause, after := o.after, arg := o.arg, caddr := o.caddr, cscyc := o.cscyc, toTaproot := o.toTaproot }
  let r := s.takeTrap d c t counted
  r.modCore d c fun k => if k.waitc.isSome then { k with owed := some o } else { k with owed := none }

/-- The return from the handler (R259): every write of handler bundles lands, the thread's writes are pending again, and the resume
bundle issues at SCYC of the frame. Commands held at a failed check run their checks again
(06_lut_engine.md R181; 16_prog_lut.md R421). -/
def Core.leaveHandler (k : Core) : Core :=
  let k := Core.ticks 16 k
  let k := { k with
    handler := false
    stepOnce := k.csr.tctl
    csr := { k.csr with tctl := false }
    pc := k.csr.tepc
    pend := k.pend ++ k.srb
    srb := []
    skipBp := true
    delay := 0
    stallTaken := k.resumeTaken
    resumeTaken := true
    eng := k.eng.recheck false }
  k.landHeld

/-- SRET (14_package.md R371). What the latest trap set aside goes on: each write lands as many cycles behind the resume bundle as it would have
(01_bundles.md R44). -/
def Core.leaveSupervisor (k : Core) : Core :=
  let x : TapSaved := k.tap.saved.headD ⟨[], [], false, 0⟩
  { k with
    tap := { k.tap with sm := k.tap.psm, ie := k.tap.pie, saved := k.tap.saved.tail }
    pend := k.pend ++ x.writes.map fun w => { w with land := k.now + w.land }
    held := k.held ++ x.held
    pc := k.tap.epc
    delay := 0
    stallTaken := x.counted }

/-- A freeze with its reason: a cause code, or 0 for the port (R268). A lookup stops between elements, and the port reads its progress
(R262, R269). -/
def Core.freeze (k : Core) (reason : Nat) : Core :=
  { k.stopLut with dbg := { k.dbg with frozen := true, reason := reason, stepping := false, stepOver := none } }

/-- The asynchronous cause that is taken next (R254): its trap, and the core with the cause consumed. -/
def Core.takeAsync (k : Core) : Option (Trap × Core) :=
  let heldCmd (m : MatCmd) : Option Trap := match m.st with
    | .held cause status tile false =>
      some { cause := cause, eng := 2, async := true, status := status, caddr := m.baddr, cscyc := m.iss, snap := m.cbGen, tile := tile }
    | .held _ _ _ true => none
    | .waiting => none
    | .started => none
  let taken (m : MatCmd) : MatCmd := match m.st with
    | .held a b t _ => { m with st := .held a b t true }
    | .waiting => m
    | .started => m
  let copyTrap (y : Fin 2) : Option (Trap × Core) := match k.eng.errs[y] with
    | [] => none
    | e :: l => some
        ({ cause := .copyError, eng := 3 + y.val, async := true, lostErr := k.eng.lostErr[y], status := e.status, caddr := e.caddr,
           cscyc := e.cscyc, info := e.cplOff },
         { k with eng := { k.eng with errs := k.eng.errs.set y l, lostErr := k.eng.lostErr.set y false } })
  match k.eng.mq.findSome? heldCmd with
  | some t => some (t, { k with eng := { k.eng with mq := k.eng.mq.map taken } })
  | none =>
    match copyTrap 0 with
    | some x => some x
    | none =>
      match copyTrap 1 with
      | some x => some x
      | none => if k.preempt then some ({ cause := .preempt, async := true }, { k with preempt := false }) else none

/-- Whether an asynchronous cause is pending (TSTAT bit 2). -/
def Core.asyncPending (k : Core) : Bool := k.takeAsync.isSome

/-- Takes the next asynchronous cause at a boundary (R254), MORE set when another stays pending. -/
def State.takeAsyncTrap (s : State) (d : Fin 4) (c : Fin 68) (counted : Bool) : State :=
  match (s.core d c).takeAsync with
  | none => s
  | some (t, k) =>
    let t := { t with more := k.asyncPending, toTaproot := t.cause == .preempt }
    let r := (s.setCore d c k).takeTrap d c t counted
    if (r.core d c).waitc.isSome then s.modCore d c fun k => k.wait memWait else r

end Sys2Proof.Machine
end

