-- ==== Sys2Proof/Machine/Operands.lean ====
section
/-! DEFINITION. What the slots of one bundle share: sources at the issue cycle, what the bundle gathers before it takes effect, and the
checks of an access (01_bundles.md R25 to R42; 04_control_scalar.md R120 to R126; 08_core_memory.md R240; 09_core_traps.md R273;
10_cluster.md R300; 12_die.md R329; 15_fabric.md R406, R408). -/

namespace Sys2Proof.Machine

open Sys2Proof

/-- A synchronous fault of a slot: the cause, the fields of the frame it fills, TRBAD, and the refusals to log with the trap. `late` says
that the slot cannot be checked yet, since its translation has not come: the bundle waits (12_die.md R331). -/
structure SlotFault where
  cause : Cause
  status : Nat := 0
  faddr : Nat := 0
  bad : Nat := 0
  arg : Nat := 0
  info : Nat := 0
  refs : List Refused := []
  late : Bool := false
  freeze : Bool := false
  deriving DecidableEq, Repr

/-- What a slot sees: its core as it stands at the issue cycle (R36), its number, guard bits, bundle, and the bundle behind it in memory. -/
structure Env where
  d : Fin 4
  c : Fin 68
  k : Core
  slot : Nat
  guard : Nat
  g : Guard
  next : W64

def Env.baddr (e : Env) : W64 := e.k.pc
def Env.iss (e : Env) : Nat := e.k.now
def Env.vl (e : Env) : Nat := e.k.regs.vl

/-- What the bundle does after it has issued (04_control_scalar.md R258; 14_package.md R371). -/
structure AfterCause where
  cause : Cause
  arg : Nat
  toTaproot : Bool
  deriving DecidableEq, Repr

/-- What the slots evaluated so far would do. `st` is the device before the bundle, with the effects of address translation; the other
fields become part of it only when the bundle issues (R42). `stale` says which writes on their way are discarded (08_core_memory.md R227). -/
structure Acc where
  st : State
  rings : Vector Ring 16
  eng : Engines
  spad : Bytes
  full : List Nat
  rng : Vector W64 4
  pends : List Pend := []
  stale : Pend → Bool := fun _ => false
  memq : List MemOp := []
  waits : List WaitInfo := []
  branch : Option W64 := none
  delay : Nat := 0
  after : Option AfterCause := none
  halt : Bool := false
  rft : Bool := false
  sret : Bool := false
  post : List (State → State) := []

/-- A slot is done, or faults; address translation may have changed the state either way. -/
inductive SlotRes where
  | ok (a : Acc)
  | fault (f : SlotFault) (a : Acc)

/-- The meaning of one slot: the registers it reads and writes, whether it decodes to SLOT_ILLEGAL in the core's present state, the width
in bits of the elements its guard acts on (0 for the slots whose guard is uniform), and its effect. -/
structure SlotOp where
  srcs : List Dst := []
  dsts : List Dst := []
  illegal : Env → Bool := fun _ => false
  unit : Core → Nat := fun _ => 0
  body : Env → Acc → SlotRes

/-- A write of this slot that lands `lat` cycles after issue. -/
def Env.pend (e : Env) (lat : Nat) (dst : Dst) (v : Nat) (latch : Option (Fin 8)) : Pend :=
  ⟨e.iss + lat, e.slot, e.iss, e.baddr, dst, v, 0, latch, [], e.k.handler, none⟩

def Acc.push (a : Acc) (w : Pend) : Acc := { a with pends := a.pends ++ [w] }

/-- An entry for the memory pipeline. -/
def Acc.mem (a : Acc) (e : Env) (m : MemKind) : Acc :=
  { a with memq := a.memq ++ [⟨e.k.bseq, e.slot, e.baddr, e.iss, e.k.handler, m⟩] }

/-- A wait of a slot of a kind, for an object, on an agent (Table 9-10). -/
def Acc.wait (a : Acc) (e : Env) (kind object agent : Nat) : Acc :=
  { a with waits := a.waits ++ [{ kind := kind, object := object, agent := agent, slot := e.slot }] }

/-- A wait that another agent's push, pop, write or arrival ends, whose record names it (R277). -/
def Acc.waitUntil (a : Acc) (e : Env) (kind object : Nat) (ends : Until) : Acc :=
  { a with waits := a.waits ++ [{ kind := kind, object := object, agent := agentUnknown, slot := e.slot, ends := some ends }] }

/-- A bundle waits for an acquire of an earlier bundle that has yet to be performed: it comes before every access of a later bundle
(04_control_scalar.md R128; 11_ordering.md R311). -/
def Core.acquiring (k : Core) : Bool := k.memq.any fun m => m.kind.isAcquire

def Acc.behindAcquire (a : Acc) (e : Env) : Acc := if e.k.acquiring then a.wait e 7 0 agentMem else a

def Acc.setRing (a : Acc) (n : Fin 16) (g : Ring) : Acc := { a with rings := a.rings.set n g }

/-- A write to an s register from slots 0 to 2. -/
def Env.toS (e : Env) (a : Acc) (lat : Nat) (n : Fin 32) (v : W64) (latch : Option (Fin 8)) : SlotRes :=
  .ok (a.push (e.pend lat (.s n) v.toNat latch))

/-- A latency-1 write of the control slot, which updates no latch (04_control_scalar.md R96). -/
def Env.ctl (e : Env) (a : Acc) (dst : Dst) (v : Nat) : SlotRes := .ok (a.push (e.pend 1 dst v none))

/-- The faults of a translation (12_die.md R329; 14_package.md R372; 15_fabric.md R408). -/
def faultOf (va : W64) : XErr → SlotFault
  | .reason st => { cause := .dataFault, status := st % 256, faddr := va.toNat, bad := va.toNat }
  | .refused r => { cause := .access, status := 0x06, faddr := va.toNat, bad := r.pa, refs := [r] }
  | .fabRefused l => { cause := .dataFault, status := 0x05, faddr := va.toNat, bad := va.toNat, refs := l }
  | .fabNoRoute => { cause := .dataFault, status := 0x09, faddr := va.toNat, bad := va.toNat }
  | .fabUnlinked => { cause := .dataFault, status := 0x09, faddr := va.toNat, bad := va.toNat }
  | .logged pa => { cause := .access, status := 0x06, faddr := va.toNat, bad := pa }
  | .late => { cause := .dataFault, faddr := va.toNat, late := true }

def dataFault (st : Nat) (va : W64) : SlotFault := { cause := .dataFault, status := st, faddr := va.toNat, bad := va.toNat }

def alignFault (va : W64) : SlotFault := { cause := .align, faddr := va.toNat, bad := va.toNat }

/-- The fault of an access to a fabric address whose bytes are consumed, as its target answers (15_fabric.md R408). -/
def State.fabFault (s : State) (pa : Nat) (kind : AccKind) (va : W64) : Option SlotFault :=
  match s.fabAnswer pa kind with
  | .ok => none
  | .noRoute => some (dataFault 0x09 va)
  | .refused l => some { dataFault 0x05 va with refs := l }
  | .bad => some (dataFault 0x09 va)

/-- Rows 1, 3 and 4 of Table 4-10 for `len` bytes of one page at a global address, with the fabric and poison rules; `needs` says that the
bytes are consumed. -/
def State.globalCheck (s : State) (w : Who) (kind : AccKind) (va : W64) (len : Nat) (needs : Bool) :
    Except SlotFault (Xlate × Place) × State :=
  if !canonical va then (.error (dataFault 0 va), s)
  else
    match s.locate w kind va len with
    | (.error .fabUnlinked, s) => (.error (if isTaproot w.c then faultOf va .fabUnlinked else dataFault 0x0C va), s)
    | (.error e, s) => (.error (faultOf va e), s)
    | (.ok (x, .fabric), s) =>
      if !isTaproot w.c then (.error (dataFault 0x0C va), s)
      else if kind.isWrite && (s.windowOf x.pa).isSome then (.error (dataFault 0x05 va), s)
      else if needs then
        match s.fabFault x.pa kind va with
        | some f => (.error f, s)
        | none => (.ok (x, .fabric), s)
      else (.ok (x, .fabric), s)
    | (.ok (x, p), s) =>
      if needs && p == .mem && s.meetsPoison w.d w.c x.pa then (.error (dataFault 0x09 va), s) else (.ok (x, p), s)

/-- Rows 1 and 2 of Table 4-10 for an access of `w` bytes in the scratchpad. -/
def spadCheck (ea : W64) (w : Nat) : Option SlotFault :=
  if ea.toNat + w > 0x80000 then some (dataFault 0 ea)
  else if ea.toNat % w ≠ 0 then some (alignFault ea) else none

/-- Table 4-10 for a naturally aligned global access of `w` bytes. -/
def State.alignedCheck (s : State) (who : Who) (kind : AccKind) (va : W64) (w : Nat) (needs : Bool) :
    Except SlotFault (Xlate × Place) × State :=
  if !canonical va then (.error (dataFault 0 va), s)
  else if va.toNat % w ≠ 0 then (.error (alignFault va), s)
  else s.globalCheck who kind va w needs

/-- The lowest byte of an access that a watchpoint watches, with its index (09_core_traps.md R273). `spaces` says scratchpad; `r` and `w`
what the access does. LEN outside 2 to 31, and a WPADDR that is not aligned, are taken as they stand (DESIGN CHOICE, log 88). -/
def watchOne (k : Core) (i : Fin 4) (sp r w : Bool) (bytes : List Nat) : Option Nat :=
  let ctl := k.csr.wpCtl[i]
  let len := 2 ^ bits ctl.toNat 13 8
  let lo := (k.csr.wpAddr[i]).toNat / len * len
  if ctl.getLsbD 0 && ctl.getLsbD 3 == sp && ((ctl.getLsbD 1 && r) || (ctl.getLsbD 2 && w)) then
    bytes.foldl (fun m b => if decide (lo ≤ b) && decide (b < lo + len) then
      (match m with | some x => some (Nat.min x b) | none => some b) else m) none
  else none

/-- The WATCH fault of an access, if one matches, the lowest-numbered of several (DESIGN CHOICE, log 88); SKIPBP exempts the bundle (R273,
R274). -/
def Env.watch (e : Env) (sp r w : Bool) (bytes : List Nat) : Option SlotFault :=
  if e.k.skipBp then none
  else
    (List.finRange 4).findSome? fun i =>
      match watchOne e.k i sp r w bytes with
      | some b => some { cause := .watch, arg := i.val, faddr := b, freeze := (e.k.csr.wpCtl[i]).getLsbD 4 }
      | none => none

/-- A range of the scratchpad, first and last byte, that a copy command has locked (08_core_memory.md R240): its engine and its bundle. -/
structure Lock where
  lo : Nat
  hi : Nat
  eng : Eng
  baddr : W64
  deriving DecidableEq, Repr

def Engines.locks (x : Engines) : List Lock :=
  (x.yq[0]).filterMap (fun y => y.lock.map fun r => ⟨r.1, r.2, .y0, y.baddr⟩) ++
    (x.yq[1]).filterMap (fun y => y.lock.map fun r => ⟨r.1, r.2, .y1, y.baddr⟩)

/-- The lock that holds one of some bytes. -/
def Engines.lockOn (x : Engines) (bytes : List Nat) : Option Lock :=
  x.locks.find? fun l => bytes.any fun b => decide (l.lo ≤ b) && decide (b ≤ l.hi)

/-- A bundle that accesses a locked byte waits, with the command as the object: bits [31:0] of its bundle's address (R240; DEDUCED, log 66). -/
def Acc.locked (a : Acc) (e : Env) (bytes : List Nat) : Acc :=
  match e.k.eng.lockOn bytes with
  | some l => a.wait e 5 (l.baddr.toNat % 2 ^ 32) (agentEng l.eng)
  | none => a

/-- The bytes from an address upwards. -/
def rangeOf (lo n : Nat) : List Nat := (List.range n).map (lo + ·)

/-- The rules every scratchpad access of slots 2 to 4 goes through after its checks: watchpoints, locks. -/
def Env.spadAccess (e : Env) (a : Acc) (r w : Bool) (bytes : List Nat) (f : Acc → SlotRes) : SlotRes :=
  match e.watch true r w bytes with
  | some x => .fault x a
  | none => f ((a.locked e bytes).behindAcquire e)

/-- The rules every global access of slots 2 to 4 goes through after its checks. -/
def Env.globalAccess (e : Env) (a : Acc) (r w : Bool) (bytes : List Nat) (f : Acc → SlotRes) : SlotRes :=
  match e.watch false r w bytes with
  | some x => .fault x a
  | none => f a

/-- The check of a global access with what follows it. -/
def Acc.global (a : Acc) (who : Who) (kind : AccKind) (va : W64) (w : Nat) (needs : Bool) (f : Acc → Xlate → Place → SlotRes) : SlotRes :=
  match a.st.alignedCheck who kind va w needs with
  | (.error x, s) => .fault x { a with st := s }
  | (.ok (x, p), s) => f { a with st := s } x p

/-- Who translates for a slot. -/
def Env.who (e : Env) (a : Acc) : Who := a.st.who e.d e.c

/-- The check of a global access that consumes what stands elsewhere than in this core's caches: `bad` says whether it meets poison there
(10_cluster.md R300). -/
def Acc.consume (a : Acc) (who : Who) (kind : AccKind) (va : W64) (w : Nat) (bad : State → Nat → Bool) (f : Acc → Xlate → Place → SlotRes) :
    SlotRes :=
  a.global who kind va w false fun a x p =>
    match p with
    | .fabric => match a.st.fabFault x.pa kind va with
      | some y => .fault y a
      | none => f a x .fabric
    | .mem => if bad a.st x.pa then .fault (dataFault 0x09 va) a else f a x .mem
    | .pcie => f a x .pcie
    | .reg => f a x .reg

/-- The bytes of a vector access, lane by lane in ascending address: the first that fails gives the fault (05_vector.md R165). A byte
is (lane, virtual address); the result adds its physical address. -/
def State.laneCheck (who : Who) (kind : AccKind) (needs : Bool) : List (Nat × W64) → State →
    Except SlotFault (List (Nat × Nat) × Bool) × State
  | [], s => (.ok ([], false), s)
  | (l, va) :: rest, s =>
    match s.globalCheck who kind va 1 needs with
    | (.error x, s) => (.error x, s)
    | (.ok (x, _), s) =>
      match State.laneCheck who kind needs rest s with
      | (.error y, s) => (.error y, s)
      | (.ok (cells, cw), s) => (.ok ((l, x.pa) :: cells, x.cw || cw), s)

/-- The post-increment of an address register, which lands at c + 1 (04_control_scalar.md R120). -/
def Env.postInc (e : Env) (a : Acc) (pi : Bool) (ab : Fin 16) (disp : W64) (latch : Option (Fin 8)) : Acc :=
  if pi then a.push (e.pend 1 (.a ab) (e.k.readA ab + disp).toNat latch) else a

/-- EA of a base, a displacement and PI (R120). -/
def Env.ea (e : Env) (ab : Fin 16) (pi : Bool) (disp : W64) : W64 := if pi then e.k.readA ab else e.k.readA ab + disp

/-- A bundle slot with its decoded operation. -/
structure Ready where
  slot : Nat
  g : Guard
  op : SlotOp

/-- Whether a slot takes part (01_bundles.md R28, R29): none where the guard is not uniform. -/
def Core.active (k : Core) (r : Ready) : Option Bool :=
  let gb := k.guardBits r.g
  let u := r.op.unit k
  if u = 0 then uniform k.regs.vl gb
  else some ((List.range (elemsBelow k.regs.vl u)).any fun i => elemOn k.regs.vl gb u i)

/-- Bits of a pending BTOK or load destination that an interlock names: OBJECT of a wait of kind 1. -/
def Dst.object (x : Dst) : Nat := x.file * 256 + x.index

/-- The agent an interlocked register waits for. -/
def Core.interlockAgent (k : Core) (x : Dst) : Nat :=
  match k.eng.btoks.find? fun b => Dst.b b.dst == x with
  | some b => agentEng b.eng
  | none => agentMem

/-- The interlock waits of slots for registers of theirs (R33). -/
def Core.interlockWaits (k : Core) (l : List Ready) (f : SlotOp → List Dst) : List WaitInfo :=
  l.flatMap fun r => ((f r.op).filter k.interlocked).map fun x => { kind := 1, object := x.object, agent := k.interlockAgent x, slot := r.slot }

/-- A slot's place in the evaluation of its bundle. -/
def envOf (s : State) (d : Fin 4) (c : Fin 68) (next : W64) (r : Ready) : Env :=
  let k := s.core d c
  ⟨d, c, k, r.slot, k.guardBits r.g, r.g, next⟩

/-- The start of an evaluation. -/
def accOf (s : State) (d : Fin 4) (c : Fin 68) : Acc :=
  let k := s.core d c
  { st := s, rings := k.rings, eng := k.eng, spad := k.spad, full := k.full, rng := k.regs.rng }

end Sys2Proof.Machine
end

