-- ==== Sys2Proof/Machine/Issue.lean ====
section
/-! DEFINITION. Issuing one bundle: fetch, skipping, waits, faults and their priority, taking effect, after-causes (01_bundles.md R17 to R45;
02_encodings.md R60 to R62; 09_core_traps.md R252 to R260, R270 to R274, R277; 12_die.md R341; 14_package.md R367, R372). -/

namespace Sys2Proof.Machine

open Sys2Proof

/-- What fetching a head word gives: a fault of row 1 or 2 of Table 1-11, or SKIPSEL, STALL, the next head word's address and the head word
itself. -/
inductive HeadRes where
  | bad (f : SlotFault)
  | ok (skip stall : Nat) (next : W64) (word : Nat)

/-- What the rest of a bundle holds: a fault of row 3, or for each present slot why it does not decode, or its operation. -/
abbrev RestRes := Except SlotFault (List (Nat × Except Cause Ready))

/-- Where a bundle comes from: memory, or a single slot given as an instruction. The rest belongs to the head word that was fetched. -/
structure Fetcher where
  head : State → HeadRes × State
  rest : Nat → State → RestRes × State

/-- The address space that tags what a core holds of its code; code at physical addresses has a tag of its own (14_package.md R396; DEDUCED,
log 16). -/
def State.codeAsn (s : State) (d : Fin 4) (c : Fin 68) : Nat := let w := s.who d c; if w.on then w.asn else 4096

/-- One aligned word of code (R22), read at its home. -/
def State.fetchHome (s : State) (d : Fin 4) (c : Fin 68) (va : W64) : Except SlotFault Nat × State :=
  let bad (st : Nat) : SlotFault := { cause := .fetchFault, status := st % 256, faddr := va.toNat, bad := va.toNat }
  if !canonical va then (.error (bad 0), s)
  else
    match s.locate (s.who d c) .fetch va 4 with
    | (.error (.reason st), s) => (.error (bad st), s)
    | (.error (.refused r), s) => (.error (faultOf va (.refused r)), s)
    | (.error (.fabRefused l), s) => (.error { bad 0x05 with refs := l }, s)
    | (.error .fabNoRoute, s) => (.error (bad 0x09), s)
    | (.error .fabUnlinked, s) => (.error (bad 0x09), s)
    | (.error (.logged pa), s) => (.error (faultOf va (.logged pa)), s)
    | (.error .late, s) => (.error { bad 0 with late := true }, s)
    | (.ok (_, .fabric), s) => (.error (bad 0x0C), s)
    | (.ok (x, .mem), s) =>
      let s := (s.bridgePass d (lineOf x.pa)).touchHome (lineOf x.pa)
      if s.poisoned x.pa then (.error (bad 0x09), s) else (.ok (readLE s.mem x.pa 4), s)
    | (.ok (x, _), s) => let r := s.readHome x.pa 4; (.ok r.1, r.2)

/-- The word of code that a held line of bytes gives (14_package.md R396). -/
def State.lineHeld (s : State) (d : Fin 4) (c : Fin 68) (va : W64) : Option Nat :=
  ((s.core d c).code.lines.find? fun l => l.asn == s.codeAsn d c && l.va == lineOf va.toNat).map fun l =>
    elemAt l.data.toNat 32 (va.toNat % 64 / 4)

/-- Consecutive words of code as their homes have them, lowest address first. -/
def State.fetchWords (d : Fin 4) (c : Fin 68) : Nat → W64 → State → Except SlotFault (List Nat) × State
  | 0, _, s => (.ok [], s)
  | n + 1, va, s =>
    match s.fetchHome d c va with
    | (.error f, s) => (.error f, s)
    | (.ok w, s) =>
      match State.fetchWords d c n (va + 4) s with
      | (.error f, s) => (.error f, s)
      | (.ok l, s) => (.ok (w :: l), s)

/-- Encoding generation and profile of a core (02_encodings.md R60; 14_package.md R367). -/
def Core.profile (k : Core) (c : Fin 68) : Profile := if isTaproot c then ⟨.g3, true⟩ else ⟨k.thr.gen, false⟩

/-- The tags of the bundle that a core stands at, and those of a cached one (14_package.md R396). -/
def State.codeTag (s : State) (d : Fin 4) (c : Fin 68) : Nat × Gen × Nat :=
  (s.codeAsn d c, ((s.core d c).profile c).gen, (s.core d c).pc.toNat)

def CodeEntry.tag (e : CodeEntry) : Nat × Gen × Nat := (e.asn, e.gen, e.va)

/-- The words of the bundle at the pc that the decoded-operation cache holds. -/
def State.codeHeld (s : State) (d : Fin 4) (c : Fin 68) : Option (List Nat) :=
  ((s.core d c).code.ops.find? fun e => e.tag == s.codeTag d c).map (·.words)

/-- Where a core's own translation puts a line of code, if it has one. -/
def State.codePa (s : State) (d : Fin 4) (c : Fin 68) (va : W64) : Option Nat :=
  let w := s.who d c
  let pa := if !w.on then some (va.toNat % 2 ^ 46)
    else ((s.core d c).tlb.find? fun e => e.covers w.asn (va48 va) && e.x).map fun e => e.ppn * 2 ^ e.bits + va48 va % 2 ^ e.bits
  pa.filter s.hasMem

/-- A line of code that the byte cache does not hold enters it as its home has it; a poisoned one does not, and faults when it is fetched
(10_cluster.md R300). -/
def State.keepLine (s : State) (d : Fin 4) (c : Fin 68) (x : CodeCache) (va : W64) : CodeCache :=
  let a := lineOf va.toNat
  if x.lines.any fun l => l.asn == s.codeAsn d c && l.va == a then x
  else
    match s.codePa d c va with
    | none => x
    | some pa => if s.poisonedFor d pa then x else { x with lines := ⟨s.codeAsn d c, a, BitVec.ofNat 512 (s.homeLine (lineOf pa))⟩ :: x.lines }

/-- A bundle fetched at its home enters the caches (14_package.md R396). -/
def State.keepCode (s : State) (d : Fin 4) (c : Fin 68) (words : List Nat) : State :=
  if (s.codeHeld d c).isSome then s
  else
    let k := s.core d c
    let n := (k.pc.toNat % 64 + 4 * words.length + 63) / 64
    let x : CodeCache := (List.range n).foldl (fun x i => s.keepLine d c x (k.pc + BitVec.ofNat 64 (64 * i))) k.code
    s.setCore d c { k with code := { x with ops := ⟨s.codeAsn d c, (k.profile c).gen, k.pc.toNat, words⟩ :: x.ops } }

/-- A line of code is fetched ahead of the issuing bundle (01_bundles.md, Fetch), by a translation that the core holds. -/
def State.fetchAhead (s : State) (d : Fin 4) (c : Fin 68) (va : W64) : State :=
  if (s.core d c).run = .running ∧ canonical va then
    match s.codePa d c va with
    | none => s
    | some pa =>
      let s := (s.bridgePass d (lineOf pa)).touchHome (lineOf pa)
      s.modCore d c fun k => { k with code := s.keepLine d c k.code va }
  else s

/-- Number of ones among bits [7:0]. -/
def ones8 (n : Nat) : Nat := ((List.range 8).filter fun i => n.testBit i).length

/-- The address behind a packed bundle (R17, R19). -/
def nextHead (pc : W64) (head : Nat) : W64 :=
  let a := pc.toNat + 4 * (1 + ones8 (bits head 7 0) + ones8 (bits head 15 8))
  BitVec.ofNat 64 (if head.testBit 20 then (a + 31) / 32 * 32 else a)

/-- Whether a head word is malformed (R18; Table 2-12 for G2; SKIPSEL on a Taproot core). -/
def headBad (p : Profile) (head : Nat) : Bool :=
  bits head 31 27 != (if p.gen = .g2 then 0b10101 else 0b10110) || bits head 26 23 != 0 ||
    ((List.range 8).any fun i => head.testBit (8 + i) && !head.testBit i) ||
    (p.gen == .g2 && (bits head 22 21 != 0 || (List.range 8).any fun i => head.testBit (8 + i) && i != 1 && i != 2)) ||
    (p.taproot && bits head 22 21 != 0)

/-- Words behind a head word (R17). -/
def wordsBehind (head : Nat) : Nat := ones8 (bits head 7 0) + ones8 (bits head 15 8)

/-- The words of the bundle at the pc that the held lines of bytes give; none where one of them is not held. -/
def State.lineBundle (s : State) (d : Fin 4) (c : Fin 68) : Option (List Nat) :=
  let k := s.core d c
  let words (n : Nat) (va : W64) : Option (List Nat) := (List.range n).mapM fun i => s.lineHeld d c (va + BitVec.ofNat 64 (4 * i))
  if (k.profile c).gen = .g1 then words 8 k.pc
  else
    match s.lineHeld d c k.pc with
    | none => none
    | some h => (words (wordsBehind h) (k.pc + 4)).map (h :: ·)

/-- The words of the bundle at the pc that a core holds: of its decoded-operation cache, else of its lines of bytes. -/
def State.heldBundle (s : State) (d : Fin 4) (c : Fin 68) : Option (List Nat) :=
  match s.codeHeld d c with
  | some ws => some ws
  | none => s.lineBundle d c

/-- The words behind a head word as their homes have them, with the head word; in G1, which has none, the eight words of the bundle. -/
def State.homeBundle (s : State) (d : Fin 4) (c : Fin 68) (head : Nat) : Except SlotFault (List Nat) × State :=
  let k := s.core d c
  if (k.profile c).gen = .g1 then State.fetchWords d c 8 k.pc s
  else
    match State.fetchWords d c (wordsBehind head) (k.pc + 4) s with
    | (.error f, s) => (.error f, s)
    | (.ok ws, s) => (.ok (head :: ws), s)

/-- Whether the homes now give the bundle at the pc these words. -/
def State.homeHas (s : State) (d : Fin 4) (c : Fin 68) (ws : List Nat) : Bool :=
  let k := s.core d c
  match State.fetchWords d c ws.length k.pc s with
  | (.ok l, _) => l == ws
  | (.error _, _) => false

/-- Whether a fetch meets the decoded bundle is open: a thread gets the old or the new bytes of each bundle (11_ordering.md R320). An entry that
it does not meet is gone. -/
def State.settleOps (s : State) (d : Fin 4) (c : Fin 68) : State :=
  if (s.codeHeld d c).isNone then s
  else if Config.codeStays s.fresh then { s with fresh := s.fresh + 1 }
  else { s with fresh := s.fresh + 1 }.modCore d c fun k =>
    { k with code := { k.code with ops := k.code.ops.filter fun e => e.tag != s.codeTag d c } }

/-- The same of a bundle of which lines of bytes are held, all its words or none (14_package.md R397). Where they are what the homes have, it
is the same bundle. -/
def State.settleLines (s : State) (d : Fin 4) (c : Fin 68) : State :=
  match s.heldBundle d c with
  | none => s
  | some ws =>
    if (s.codeHeld d c).isSome || s.homeHas d c ws then s
    else if Config.codeStays s.fresh then { s with fresh := s.fresh + 1 }
    else { s with fresh := s.fresh + 1 }.modCore d c fun k =>
      { k with code := { k.code with lines := k.code.lines.filter fun l => l.va != lineOf k.pc.toNat } }

/-- A fetch settles once, for the whole bundle, whether it takes held words; a bundle that waits has been fetched. -/
def State.settleCode (s : State) (d : Fin 4) (c : Fin 68) : State :=
  if (s.core d c).waitc.isSome then s else (s.settleOps d c).settleLines d c

/-- The first word of the bundle at the pc. -/
def State.fetchFirst (s : State) (d : Fin 4) (c : Fin 68) : Except SlotFault Nat × State :=
  match s.heldBundle d c with
  | some (h :: _) => (.ok h, s)
  | _ => s.fetchHome d c (s.core d c).pc

/-- Fetches and checks the head word at the pc (rows 1 and 2 of Table 1-11). G1 bundles have none (Table 2-12). An address that is no
multiple of 4 raises BUNDLE_FORMAT (DEDUCED, log 35), and so does one in G1 that is no multiple of 32 (DESIGN CHOICE, log 83). -/
def fetchHead (d : Fin 4) (c : Fin 68) (s : State) : HeadRes × State :=
  let k := s.core d c
  let p := k.profile c
  if k.pc.toNat % (if p.gen = .g1 then 32 else 4) ≠ 0 then (.bad { cause := .bundleFormat }, s)
  else
    let s := s.settleCode d c
    if p.gen = .g1 then (.ok 0 0 (k.pc + 32) 0, s)
    else
      match s.fetchFirst d c with
      | (.error f, s) => (.bad f, s)
      | (.ok w, s) => (if headBad p w then .bad { cause := .bundleFormat } else .ok (bits w 22 21) (bits w 19 16) (nextHead k.pc w) w, s)

/-- Pairs the words behind a head word with the slots they belong to: slot, word, extension (R17). -/
def splitWords (head : Nat) : List Nat → List Nat → List (Nat × Nat × Option Nat)
  | [], _ => []
  | i :: slots, ws =>
    if head.testBit i then
      match ws with
      | [] => []
      | w :: ws =>
        if head.testBit (8 + i) then
          match ws with
          | [] => []
          | x :: ws => (i, w, some x) :: splitWords head slots ws
        else (i, w, none) :: splitWords head slots ws
    else splitWords head slots ws

/-- All words of the bundle at the pc, behind the head word that was fetched (row 3 of Table 1-11). -/
def State.fetchBundle (s : State) (d : Fin 4) (c : Fin 68) (head : Nat) : Except SlotFault (List Nat) × State :=
  match s.heldBundle d c with
  | some ws => (.ok ws, s)
  | none => s.homeBundle d c head

/-- Present slots of a bundle. -/
def bundleSlots (gen : Gen) (ws : List Nat) : List (Nat × Nat × Option Nat) :=
  match gen, ws with
  | .g1, ws => splitWords 0xFF (List.range 8) ws
  | _, [] => []
  | _, h :: ws => splitWords h (List.range 8) ws

/-- The cause a slot word that does not decode raises (R26, 02_encodings.md R62). -/
def Reject.cause : Reject → Cause
  | .legacy => .legacy
  | .unassigned => .slotIllegal
  | .reservedBits => .slotIllegal
  | .badField => .slotIllegal
  | .extension => .slotIllegal
  | .notPermitted => .slotIllegal

/-- Why a core does not take a slot word (02_encodings.md R60 to R62; 14_package.md R367): its profile, its generation, or fields that no
word of the instruction encodes. -/
def slotRefusal (p : Profile) (x : Slot) : Option Cause :=
  let e := x.encode
  match profileRefuses p.taproot e.1 e.2.1 with
  | some r => some (Reject.cause r)
  | none =>
    match genRefuses p.gen e.1 e.2.1 with
    | some r => some (Reject.cause r)
    | none => if x.wf then none else some .slotIllegal

/-- Words that a bundle of one slot holds behind its head word. -/
def slotWordCount (x : Slot) : Nat := 1 + (if x.encode.2.2.isSome then 1 else 0)

/-- A slot taken as an instruction: a bundle that holds it alone, without STALL, STOP or SKIPSEL; in G1 a bundle is always 32 bytes. -/
def slotFetcher (d : Fin 4) (c : Fin 68) (x : Slot) (op : SlotOp) : Fetcher where
  head s :=
    let k := s.core d c
    (.ok 0 0 (k.pc + BitVec.ofNat 64 (if (k.profile c).gen = .g1 then 32 else 4 * (1 + slotWordCount x))) 0, s)
  rest _ s :=
    (.ok [(x.op.slot.val, match slotRefusal ((s.core d c).profile c) x with
      | some cause => .error cause
      | none => .ok ⟨x.op.slot.val, x.g, op⟩)], s)

/-- Interlocked results of a vector slot that have not landed. -/
def Core.slotResults (k : Core) (n : Nat) : Bool := (k.memq.any fun x => x.slot == n && x.kind.dst.isSome) || k.held.any fun h => h.slot == n

/-- Queues named by an engine mask are empty, and for V0 and V1 every interlocked result has landed (09_core_traps.md R270;
08_core_memory.md R226). -/
def Core.enginesEmpty (k : Core) (m : Nat) : Bool :=
  (!m.testBit 0 || !k.slotResults 3) && (!m.testBit 1 || !k.slotResults 4) &&
    (!m.testBit 2 || k.eng.mq.isEmpty) && (!m.testBit 3 || (k.eng.yq[0]).isEmpty) && (!m.testBit 4 || (k.eng.yq[1]).isEmpty)

/-- An enabled breakpoint on a schedule cycle that has come (R272). -/
def Core.cycleBreak (k : Core) : Option (Fin 4) :=
  (List.finRange 4).find? fun i =>
    (k.csr.bpCtl[i]).getLsbD 0 && (k.csr.bpCtl[i]).getLsbD 1 && decide ((k.csr.bpVal[i]).toNat % 2 ^ 48 ≤ k.cyc)

/-- An enabled breakpoint on the address of the bundle about to issue (R272, R274). -/
def Core.addrBreak (k : Core) : Option (Fin 4) :=
  if k.skipBp then none
  else (List.finRange 4).find? fun i => (k.csr.bpCtl[i]).getLsbD 0 && !(k.csr.bpCtl[i]).getLsbD 1 && k.csr.bpVal[i] == k.pc

/-- A breakpoint match: a freeze with TOPORT, else a trap (R271). -/
def State.breakAt (s : State) (d : Fin 4) (c : Fin 68) (i : Fin 4) (counted : Bool) : State :=
  if ((s.core d c).csr.bpCtl[i]).getLsbD 2 then s.modCore d c fun k => k.freeze 0x10
  else s.takeTrap d c { cause := .break, arg := i.val } counted

/-- A match of a breakpoint on a cycle, which clears its own EN (R272) and stays due while its trap must wait. -/
def State.cycleBreakAt (s : State) (d : Fin 4) (c : Fin 68) (i : Fin 4) (counted : Bool) : State :=
  let s := s.modCore d c fun k => { k with csr := { k.csr with bpCtl := k.csr.bpCtl.set i (k.csr.bpCtl[i] &&& 0x6) } }
  if ((s.core d c).csr.bpCtl[i]).getLsbD 2 then s.modCore d c fun k => k.freeze 0x10
  else s.takeOwed d c ⟨.break, i.val, false, 0, 0, false⟩ counted

/-- A wait for the translation of an access, by the low 32 bits of its address (Table 9-10; 12_die.md R331). -/
def walkWait (x : Nat × SlotFault) : WaitInfo := { kind := 7, object := x.2.faddr % 2 ^ 32, agent := agentMem, slot := x.1 % 8 }

/-- The synchronous trap of a bundle: the cause of its lowest faulting slot, the mask of all, refusals logged with it (R42, R43;
12_die.md R339). A bundle of which a translation has not come waits. -/
def State.faultTrap (s : State) (d : Fin 4) (c : Fin 68) (faults : List (Nat × SlotFault)) (counted : Bool) : State :=
  match faults with
  | [] => s
  | (_, f) :: _ =>
    match faults.find? fun x => x.2.late with
    | some x => s.modCore d c fun k => k.wait (walkWait x)
    | none =>
    if f.freeze then s.modCore d c fun k => k.freeze f.cause.code
    else
      let mask := faults.foldl (fun m x => m ||| (if x.1 < 8 then 2 ^ x.1 else 0)) 0
      let t := s.takeTrap d c { cause := f.cause, mask := mask, status := f.status, arg := f.arg, faddr := f.faddr, bad := f.bad,
                                info := f.info } counted
      if (t.core d c).waitc.isSome then t else (faults.flatMap fun x => x.2.refs).foldl State.logRefused t

/-- The interrupt a Taproot core takes at a boundary (14_package.md R372): the lowest bit of TRIP and TRIE while TRSTAT.IE is 1. -/
def State.interrupt (s : State) (d : Fin 4) (c : Fin 68) : Option Nat :=
  let k := s.core d c
  if isTaproot c && k.tap.ie then (List.range 8).find? fun i => (s.trip d c).testBit i && k.tap.irqEn.getLsbD i else none

def State.takeInterrupt (s : State) (d : Fin 4) (c : Fin 68) (counted : Bool) : State :=
  match s.interrupt d c with
  | some i => s.modCore d c fun k => k.enterSupervisor (BitVec.ofNat 64 (2 ^ 63 + i)) 0 counted
  | none => s

/-- What a boundary brings before its bundle: a cause that is due and had to wait, then asynchronous causes and breakpoints (R252, R254, R272;
14_package.md R372); none where the bundle goes on. -/
def State.boundary (s : State) (d : Fin 4) (c : Fin 68) (counted : Bool) : Option State :=
  let k := s.core d c
  if isTaproot c then (if (s.interrupt d c).isSome then some (s.takeInterrupt d c counted) else none)
  else if let some o := k.owed then some (s.takeOwed d c o counted)
  else if k.handler then none
  else if k.asyncPending then some (s.takeAsyncTrap d c counted)
  else
    match k.cycleBreak with
    | some i => some (s.cycleBreakAt d c i counted)
    | none => none

/-- The idle cycles of DELAY pass (04_control_scalar.md R104). -/
def State.passDelay (s : State) (d : Fin 4) (c : Fin 68) : State :=
  if (s.core d c).delay = 0 then s else s.modCore d c fun k => { Core.ticks k.delay k with delay := 0 }

/-- The idle cycles of a STALL field pass (R31). -/
def State.passStall (s : State) (d : Fin 4) (c : Fin 68) (n : Nat) : State :=
  if n = 0 then s else s.modCore d c fun k => { Core.ticks n k with stallTaken := true }

/-- Whether SKIPSEL skips a bundle now (R17, R31). -/
def Core.skips (k : Core) (sel : Nat) : Bool :=
  match sel with
  | 0 => false
  | n + 1 => !(k.regs.sk.getD n true)

/-- The cycles before the bundle at the pc pass, as far as its head word can be read (R256): whether its STALL is counted. None while the
translation of the head word has not come. -/
def State.settleNext (s : State) (d : Fin 4) (c : Fin 68) : State × Option Bool :=
  let s := s.passDelay d c
  match fetchHead d c s with
  | (.bad x, s) => (s, if x.late && !isTaproot c then none else some (s.core d c).stallTaken)
  | (.ok sel stall _ _, s) =>
    let k := s.core d c
    (s.passStall d c (if k.stallTaken || k.skips sel then 0 else stall), some true)

/-- One skipped bundle (R23, R31). -/
def State.skipBundle (s : State) (d : Fin 4) (c : Fin 68) (next : W64) : State :=
  s.modCore d c fun k => { k with pc := next, stallTaken := false, waitc := none }.tick

/-- The cycles until every write on its way has landed pass. -/
def Core.drainPends (k : Core) : Core := Core.ticks (k.pend.foldl (fun m w => Nat.max m (w.land - k.now)) 0) k

/-- Evaluates the slots in ascending order: what they do, and the faults among them (R38, R43). -/
def runSlots (s : State) (d : Fin 4) (c : Fin 68) (next : W64) : List Ready → Acc → List (Nat × SlotFault) → Acc × List (Nat × SlotFault)
  | [], a, fs => (a, fs)
  | r :: l, a, fs =>
    match r.op.body (envOf s d c next r) a with
    | .ok a => runSlots s d c next l a fs
    | .fault f a => runSlots s d c next l a (fs ++ [(r.slot, f)])

/-- The record of a wait that ends with this issue (R277). -/
def Core.postWait (k : Core) : Core :=
  match k.waitc with
  | some w =>
    if w.cycles < k.csr.waitMin.toNat then k
    else k.post ⟨0x30, sourceOf w.slot k.handler, w.kind, w.cycles, k.pc, k.now, w.agent, w.object % 2 ^ 32⟩
  | none => k

/-- The entries of one bundle in the order they enter the pipeline: its loads read memory before its stores (R38). -/
def loadsFirst (l : List MemOp) : List MemOp := (l.filter fun m => m.kind.isLoad) ++ l.filter fun m => !m.kind.isLoad

/-- The core's part of an issue: what the slots gathered becomes state, and one cycle passes (R30, R32, R36, R38). -/
def Core.commit (k : Core) (a : Acc) (next : W64) : Core :=
  let k := k.postWait
  let k := { k with
    rings := a.rings
    eng := a.eng
    full := a.full
    regs := { k.regs with rng := a.rng }
    pend := (k.pend.filter fun w => !a.stale w) ++ a.pends
    srb := k.srb.filter fun w => !a.stale w
    memq := k.memq ++ loadsFirst a.memq
    bseq := k.bseq + 1
    skipBp := false
    stepOnce := k.handler && k.stepOnce
    stallTaken := false
    waitc := none
    delay := a.delay
    haltAddr := if a.halt then k.pc else k.haltAddr
    run := if a.halt then .halted else k.run
    pc := a.branch.getD next }
  (k.setSpad a.spad).tick

/-- The after-cause of an issued bundle: its own, or STEP (R258). A halted thread has no boundary for STEP. -/
def Core.afterCause (k : Core) (c : Fin 68) (a : Acc) : Option AfterCause :=
  match a.after with
  | some x => some x
  | none => if !isTaproot c && !k.handler && (k.csr.tctl || k.stepOnce) && !a.halt then some ⟨.step, 0, false⟩ else none

/-- A bundle issues. -/
def State.commit (a : Acc) (d : Fin 4) (c : Fin 68) (next : W64) : State :=
  let k := a.st.core d c
  let s := a.st.setCore d c (k.commit a next)
  let s := a.post.foldl (fun s f => f s) s
  let s := if a.rft then s.modCore d c Core.leaveHandler else if a.sret then s.modCore d c Core.leaveSupervisor else s
  let s := match k.afterCause c a with
    | none => s
    | some x =>
      let o : Owed := ⟨x.cause, x.arg, x.toTaproot, k.pc, k.now, true⟩
      if k.dbg.stepping then s.modCore d c fun k => { k with owed := some o }
      else
        match s.settleNext d c with
        | (s, some counted) => s.takeOwed d c o counted
        | (s, none) => s.modCore d c fun k => { k with owed := some o }
  s

/-- The slots of a decoded bundle that decode, those whose guard is not uniform, and those that take part (R28, R29). -/
def Core.diverging (k : Core) (l : List Ready) : List (Nat × SlotFault) :=
  l.filterMap fun r => match k.active r with
    | none => some (r.slot, ({ cause := .diverge, info := k.readP r.g.p % 2 ^ 64 } : SlotFault))
    | some _ => none

def Core.liveSlots (k : Core) (l : List Ready) : List Ready := l.filter fun r => k.active r == some true

/-- The pending writes of a thread may not come to more than 64: the bundle waits (09_core_traps.md R260), as for a register whose number is
unknown, on memory (Table 9-10 names no kind: DESIGN CHOICE, log 79). What the bundle adds counts, its loads behind an earlier write of their
register among it. -/
def Core.overFull (k : Core) (a : Acc) : List WaitInfo :=
  let writes := (k.pend.filter fun w => !a.stale w) ++ (k.srb.filter fun w => !a.stale w) ++ a.pends
  if writes.length + k.held.length + k.eng.btoks.length + (a.eng.btoks.length - k.eng.btoks.length) +
      loadRecords writes (k.memq ++ a.memq) > 64 then [{ kind := 1, object := 0xFFFF, agent := agentMem }]
  else []

/-- The decoded bundle at its issue cycle (rows 4 and 5 of Table 1-11, R33, R126): it traps, waits or issues. -/
def State.evaluate (s : State) (d : Fin 4) (c : Fin 68) (next : W64) (slots : List (Nat × Except Cause Ready)) : State :=
  let wait (s : State) (w : WaitInfo) : State :=
    s.modCore d c fun k => { k.wait { w with since := s.hub.ptime.toNat } with stallTaken := true }
  let undecoded := slots.filterMap fun x => match x.2 with
    | .error cause => some (x.1, ({ cause := cause } : SlotFault))
    | .ok r => if r.op.illegal (envOf s d c next r) then some (x.1, { cause := .slotIllegal }) else none
  match undecoded with
  | _ :: _ => s.faultTrap d c undecoded true
  | [] =>
    let ready := slots.filterMap fun x => x.2.toOption
    let live := (s.core d c).liveSlots ready
    match (s.core d c).interlockWaits live SlotOp.srcs with
    | w :: _ => wait s w
    | [] =>
      let r := runSlots s d c next live (accOf s d c) []
      match sortFaults ((s.core d c).diverging ready ++ r.2) with
      | f :: l => r.1.st.faultTrap d c (f :: l) true
      | [] =>
        let k := r.1.st.core d c
        match k.addrBreak with
        | some i => r.1.st.breakAt d c i true
        | none =>
          match k.interlockWaits live SlotOp.dsts ++ r.1.waits ++ k.overFull r.1 with
          | w :: _ => wait r.1.st w
          | [] => State.commit r.1 d c next
where
  /-- Faults by rising slot. -/
  sortFaults (l : List (Nat × SlotFault)) : List (Nat × SlotFault) := (List.range 8).flatMap fun i => l.filter fun x => x.1 == i

/-- BUDGET and EN of EBUDGET (12_die.md Table 12-11). -/
def Die.budget (x : Die) : Nat := bits x.ebudget.toNat 31 0
def Die.budgetOn (x : Die) : Bool := x.ebudget.getLsbD 63

/-- EUSED has reached BUDGET (12_die.md R341). -/
def Die.spent (x : Die) : Bool := x.budgetOn && decide (x.eused.toNat ≥ x.budget)

/-- Whether a core holds issue for energy or heat (12_die.md R341; 14_package.md R402). A hold that has begun lasts to the end of its window,
whatever EBUDGET becomes. -/
def Die.holds (x : Die) (c : Fin 68) : Bool := !isTaproot c && (x.hardHold || x.spent || x.thermHold)

/-- A clock cycle of such a hold, counted in ETHROT. -/
def State.countHold (s : State) (d : Fin 4) (c : Fin 68) : State :=
  s.modDie d fun x => { x with ethrot := x.ethrot.setIfInBounds c.val (x.ethrot.getD c.val 0 + 1) }

/-- A single step of the debug port ends once the schedule cycle has advanced from `cyc` (R270); handler cycles do not advance it. -/
def State.endStep (s : State) (d : Fin 4) (c : Fin 68) (cyc : Nat) : State :=
  let k := s.core d c
  if k.dbg.stepping && k.cyc != cyc then s.setCore d c (k.freeze 0x11) else s

/-- One attempt to issue the bundle a running core stands at (R30). -/
def attempt (f : Fetcher) (d : Fin 4) (c : Fin 68) (s : State) : State :=
  let k := s.core d c
  if k.dbg.stepping && k.delay != 0 then s.setCore d c { k.tick with delay := k.delay - 1 }
  else
    let s := s.passDelay d c
    match f.head s with
    | (.bad x, s) =>
      let counted := (s.core d c).stallTaken
      let trap := s.faultTrap d c [(8, x)] counted
      if x.late && !isTaproot c then trap else (s.boundary d c counted).getD trap
    | (.ok sel stall next word, s) =>
      let k := s.core d c
      let skip := k.skips sel
      let n := if k.stallTaken || skip then 0 else stall
      if k.dbg.stepping && n != 0 then s.setCore d c { k.tick with delay := n - 1, stallTaken := true }
      else
        let s := s.passStall d c n
        match s.boundary d c true with
        | some s => s
        | none =>
          if skip then s.skipBundle d c next
          else
            match f.rest word s with
            | (.error x, s) => s.faultTrap d c [(8, x)] true
            | (.ok slots, s) => s.evaluate d c next slots

/-- A core's turn: without a running thread, or frozen, it does nothing; under a hold it counts a cycle; a step over ends at the boundary
where the queues it names are empty (R270). -/
def issueWith (f : Fetcher) (d : Fin 4) (c : Fin 68) (s : State) : State :=
  let k := s.core d c
  if k.run ≠ .running || k.dbg.frozen then s
  else if (s.die d).holds c then s.countHold d c
  else if (k.dbg.stepOver.any fun m => k.enginesEmpty m) then s.setCore d c (k.freeze 0x11)
  else if k.dbg.stepping then (attempt f d c s).endStep d c k.cyc
  else attempt f d c s

/-- What an agent's step does to a device that has power (14_package.md R402). -/
def powered (f : State → State) (s : State) : Host.Outcome State Fault Refusal := if s.power then .next (f s) else .fault .powerOff

/-- An instruction: the sequencer named by `cur` issues a bundle that holds it alone (DESIGN CHOICE, log 1). -/
def issueOne (x : Slot) (op : SlotOp) (s : State) : Host.Outcome State Fault Refusal :=
  powered (issueWith (slotFetcher s.cur.1 s.cur.2 x op) s.cur.1 s.cur.2) s

end Sys2Proof.Machine
end

