-- ==== Sys2Proof/Machine/Control.lean ====
section
/-! DEFINITION. Control-slot instructions (04_control_scalar.md R96 to R113; 09_core_traps.md R258, R259, R278; 14_package.md R371, R372). -/

namespace Sys2Proof.Machine

open Sys2Proof

/-- A control slot without operands and effect. -/
def opNothing : SlotOp := { body := fun _ a => .ok a }

/-- A taken branch (R97). -/
def Acc.goTo (a : Acc) (t : W64) : Acc := { a with branch := some t }

def opCnop : SlotOp := opNothing

def opBr (bt : Fin 8) : SlotOp where
  srcs := [.b bt]
  body e a := .ok (a.goTo e.k.regs.b[bt])

/-- BRP (Table 4-1, R41). INFO of DIVERGE is the predicate for lanes 0 to 63. -/
def opBrp (bt : Fin 8) (neg : Bool) (ps : Fin 8) : SlotOp where
  srcs := [.b bt]
  body e a :=
    match uniform e.vl (e.k.readP ps) with
    | none => .fault { cause := .diverge, info := e.k.readP ps % 2 ^ 64 } a
    | some q => .ok (if q != neg then a.goTo e.k.regs.b[bt] else a)

/-- BRLC (Table 4-1). -/
def opBrlc (bt : Fin 8) (lc : Fin 4) : SlotOp where
  srcs := [.b bt]
  body e a :=
    let n := e.k.regs.lc[lc]
    if n = 0 then .ok a
    else
      let a := if n - 1 = 0 then a else a.goTo e.k.regs.b[bt]
      e.ctl a (.lc lc) (n - 1).toNat

/-- BRL: the link is the address of the bundle behind this one in memory (R98). -/
def opBrl (bt bl : Fin 8) : SlotOp where
  srcs := [.b bt]
  dsts := [.b bl]
  body e a := e.ctl (a.goTo e.k.regs.b[bt]) (.b bl) e.next.toNat

/-- BRX (Table 4-1, R99). -/
def opBrx (n : Fin 32) : SlotOp where
  srcs := [.s n]
  body e a :=
    let t := e.k.readS n
    if t.toNat % 4 ≠ 0 then .fault (alignFault t) a else .ok (a.goTo t)

def opHalt : SlotOp where
  body _ a := .ok { a with halt := true }

def opDelay (n : BitVec 16) : SlotOp where
  body _ a := .ok { a with delay := a.delay + n.toNat }

/-- PBR (R101): the bundle's own address plus 4 × I18. -/
def opPbr (bd : Fin 8) (i : BitVec 18) : SlotOp where
  dsts := [.b bd]
  body e a := e.ctl a (.b bd) (e.baddr + BitVec.ofInt 64 (4 * i.toInt)).toNat

def opPbrs (d : Fin 8) (n : Fin 32) : SlotOp where
  srcs := [.s n]
  dsts := [.b d]
  body e a :=
    let t := e.k.readS n
    if t.toNat % 4 ≠ 0 then .fault (alignFault t) a else e.ctl a (.b d) t.toNat

def opBget (d : Fin 32) (n : Fin 8) : SlotOp where
  srcs := [.b n]
  dsts := [.s d]
  body e a := e.ctl a (.s d) (e.k.regs.b[n]).toNat

/-- BTOK (R102): closes the engine's window; commands of this bundle belong to the next one. -/
def opBtok (d : Fin 8) (g : Eng) : SlotOp where
  srcs := [.b d]
  dsts := [.b d]
  body e a :=
    let w := a.eng.win[engIdx g]
    .ok { a with eng := { a.eng with
      win := a.eng.win.set (engIdx g) (w + 1)
      btoks := a.eng.btoks ++ [⟨d, e.k.regs.b[d], g, w, e.k.bseq, e.iss, e.k.handler⟩] } }

def opLcset (d : Fin 4) (n : BitVec 16) : SlotOp where
  body e a := e.ctl a (.lc d) n.toNat

def opLcsets (d : Fin 4) (n : Fin 32) : SlotOp where
  srcs := [.s n]
  body e a := e.ctl a (.lc d) ((e.k.readS n).toNat % 2 ^ 32)

def opLcget (d : Fin 32) (n : Fin 4) : SlotOp where
  dsts := [.s d]
  body e a := e.ctl a (.s d) (e.k.regs.lc[n]).toNat

def opSkset (d : Fin 3) (n : Bool) : SlotOp where
  body e a := e.ctl a (.sk d) (if n then 1 else 0)

def opSksets (d : Fin 3) (n : Fin 32) : SlotOp where
  srcs := [.s n]
  body e a := e.ctl a (.sk d) (if e.k.readS n = 0 then 0 else 1)

def opSkget (d : Fin 32) (n : Fin 3) : SlotOp where
  dsts := [.s d]
  body e a := e.ctl a (.s d) (if e.k.regs.sk[n] then 1 else 0)

/-- A shape request (R107 to R110): SHAPE for a bad one, PRIV in handler mode (09_core_traps.md R257); the grant goes to an sh register,
and to an s register. -/
def Env.shapeRequest (e : Env) (a : Acc) (d : Fin 4) (out : Fin 32) (req : Nat) : SlotRes :=
  if e.k.handler then .fault { cause := .priv } a
  else if shapeBad req then .fault { cause := .shape } a
  else
    let g := grantOf (a.st.maxima e.d e.c.val) req
    .ok ((a.push (e.pend 1 (.sh d) g none)).push (e.pend 1 (.s out) g none))

def opShape (d : Fin 4) (n out : Fin 32) : SlotOp where
  srcs := [.s n]
  dsts := [.s out]
  body e a := e.shapeRequest a d out (e.k.readS n).toNat

def opShapex (d : Fin 4) (out : Fin 32) (imm : BitVec 32) : SlotOp where
  dsts := [.s out]
  body e a := e.shapeRequest a d out imm.toNat

def opShget (d : Fin 32) (n : Fin 4) : SlotOp where
  dsts := [.s d]
  body e a := e.ctl a (.s d) (e.k.regs.sh[n]).toNat

def opFdset (d : Fin 4) (n : Fin 32) : SlotOp where
  srcs := [.s n]
  body e a := e.ctl a (.f d) ((e.k.readS n).toNat % 2 ^ 17)

def opFdget (d : Fin 32) (n : Fin 4) : SlotOp where
  dsts := [.s d]
  body e a := e.ctl a (.s d) (e.k.regs.f[n]).toNat

/-- A cause that the bundle takes after it has issued (09_core_traps.md R258). -/
def opAfter (cause : Cause) (n : BitVec 16) (toTaproot : Bool) : SlotOp where
  body _ a := .ok { a with after := some ⟨cause, n.toNat, toTaproot⟩ }

def opTrap (n : BitVec 16) : SlotOp := opAfter .syscall n false
def opBrk (n : BitVec 16) : SlotOp := opAfter .break n false
def opScall (n : BitVec 16) : SlotOp := opAfter .syscall n true

/-- Register writes of handler bundles that have yet to land (R259). A fixed write that is due at a later handler cycle does not land while a
bundle waits (16_prog_lut.md R419). -/
def Core.handlerOwes (k : Core) : List WaitInfo :=
  let wait (x : Dst) (agent : Nat) : WaitInfo := { kind := 1, object := x.object, agent := agent }
  (k.memq.filterMap fun m => if m.handler then m.kind.dst.map fun x => wait x agentMem else none) ++
    (k.held.filterMap fun h => if h.handler then some (wait h.dst agentMem) else none) ++
    (k.eng.btoks.filterMap fun b => if b.handler then some (wait (.b b.dst) (agentEng b.eng)) else none) ++
    (k.pend.filterMap fun w => if w.handler then some (wait w.dst agentUnknown) else none)

/-- RFT (R259). -/
def opRft : SlotOp where
  body e a :=
    if !e.k.handler then .fault { cause := .priv } a
    else .ok { a with rft := true, waits := a.waits ++ e.k.handlerOwes.map fun w => { w with slot := e.slot } }

/-- The CSR numbers of an engine core (09_core_traps.md Table 9-11). -/
def csrExists (n : Nat) : Bool :=
  [0x000, 0x001, 0x002, 0x010, 0x011, 0x012, 0x013, 0x020, 0x021, 0x022, 0x023, 0x024, 0x030, 0x031, 0x032, 0x033, 0x034, 0x035, 0x036,
    0x050].contains n || (decide (0x040 ≤ n) && decide (n ≤ 0x04F))

/-- The CSR numbers of a Taproot core (14_package.md Table 14-4). -/
def tapCsrExists (n : Nat) : Bool := decide (0x400 ≤ n) && decide (n ≤ 0x40B)

/-- A CSR number that raises SLOT_ILLEGAL (R278, 14_package.md R372). -/
def csrIllegal (taproot : Bool) (n : Nat) : Bool :=
  if taproot then !tapCsrExists n else decide (n < 0x400) && !csrExists n

/-- A CSR access that raises PRIV: an engine core beyond its own numbers, a thread that writes TEPC, a Taproot core in user mode at
anything but TRTIME, TRCYC and TRID. -/
def Env.csrPriv (e : Env) (n : Nat) (write : Bool) : Bool :=
  if isTaproot e.c then !e.k.tap.sm && decide (n < 0x408 ∨ n = 0x409)
  else decide (0x400 ≤ n) || (n == 0x013 && write && !e.k.handler)

/-- Records in the shadow result buffer (Table 9-11): those a trap has set aside. -/
def Core.bufferCount (k : Core) : Nat :=
  if k.handler then k.srb.length + (k.held.filter fun h => !h.handler).length + (k.eng.btoks.filter fun b => !b.handler).length else 0

/-- A CSR as read at issue (Tables 9-11 and 14-4). -/
def Env.csr (e : Env) (a : Acc) (n : Nat) : W64 :=
  let k := e.k
  let c := k.csr
  if n = 0x000 then BitVec.ofNat 64 (ctxId e.d e.c k)
  else if n = 0x001 then
    BitVec.ofNat 64 ((if k.handler then 1 else 0) + (if k.skipBp then 2 else 0) + (if k.asyncPending then 4 else 0))
  else if n = 0x002 then (if c.tctl then 1 else 0)
  else if n = 0x010 then c.tvec
  else if n = 0x011 then c.tframe.setWidth 64
  else if n = 0x012 then c.tdeleg.setWidth 64
  else if n = 0x013 then c.tepc
  else if 0x020 ≤ n ∧ n ≤ 0x023 then k.regs.rng.getD (n - 0x020) 0
  else if n = 0x024 then BitVec.ofNat 64 ((k.regs.sl[0]).toNat + 256 * (k.regs.sl[1]).toNat)
  else if n = 0x030 then BitVec.ofNat 64 c.statCtl
  else if n = 0x031 then c.waitMin.setWidth 64
  else if n = 0x032 then c.statBase
  else if n = 0x033 then c.statSize.setWidth 64
  else if n = 0x034 then c.statHead.setWidth 64
  else if n = 0x035 then c.statTail.setWidth 64
  else if n = 0x036 then c.statLost.setWidth 64
  else if 0x040 ≤ n ∧ n ≤ 0x043 then c.bpVal.getD (n - 0x040) 0
  else if 0x044 ≤ n ∧ n ≤ 0x047 then (c.bpCtl.getD (n - 0x044) 0).setWidth 64
  else if 0x048 ≤ n ∧ n ≤ 0x04B then c.wpAddr.getD (n - 0x048) 0
  else if 0x04C ≤ n ∧ n ≤ 0x04F then (c.wpCtl.getD (n - 0x04C) 0).setWidth 64
  else if n = 0x050 then BitVec.ofNat 64 k.bufferCount
  else if n = 0x400 then
    BitVec.ofNat 64 ((if k.tap.sm then 1 else 0) + (if k.tap.psm then 2 else 0) + (if k.tap.ie then 4 else 0) + (if k.tap.pie then 8 else 0))
  else if n = 0x401 then k.tap.vec
  else if n = 0x402 then k.tap.epc
  else if n = 0x403 then k.tap.cause
  else if n = 0x404 then k.tap.bad
  else if n = 0x405 then k.tap.root
  else if n = 0x406 then k.tap.irqEn
  else if n = 0x407 then BitVec.ofNat 64 (a.st.trip e.d e.c)
  else if n = 0x408 then a.st.hub.ptime
  else if n = 0x409 then k.tap.tcmp
  else if n = 0x40A then BitVec.ofNat 64 k.cyc
  else if n = 0x40B then BitVec.ofNat 64 (e.c.val % 4 + 4 * e.d.val)
  else 0

/-- A write of a CSR, landing at c + 1 (R113). -/
def opCsrWrite (n : BitVec 11) (src : Fin 32) (f : W64 → W64 → W64) : SlotOp where
  srcs := [.s src]
  illegal e := csrIllegal (isTaproot e.c) n.toNat
  body e a :=
    if e.csrPriv n.toNat true then .fault { cause := .priv } a
    else e.ctl a (.csr n.toNat) (f (e.csr a n.toNat) (e.k.readS src)).toNat

def opCsrrd (d : Fin 32) (n : BitVec 11) : SlotOp where
  dsts := [.s d]
  illegal e := csrIllegal (isTaproot e.c) n.toNat
  body e a := if e.csrPriv n.toNat false then .fault { cause := .priv } a else e.ctl a (.s d) (e.csr a n.toNat).toNat

def opCsrwr (src : Fin 32) (n : BitVec 11) : SlotOp := opCsrWrite n src fun _ v => v
def opCsrset (src : Fin 32) (n : BitVec 11) : SlotOp := opCsrWrite n src fun old v => old ||| v
def opCsrclr (src : Fin 32) (n : BitVec 11) : SlotOp := opCsrWrite n src fun old v => old &&& ~~~v

/-- SRET (14_package.md R371): PRIV in user mode. -/
def opSret : SlotOp where
  body e a := if e.k.tap.sm then .ok { a with sret := true } else .fault { cause := .priv } a

/-- WFI (14_package.md R371). -/
def opWfi : SlotOp where
  body e a :=
    if !e.k.tap.sm then .fault { cause := .priv } a
    else .ok (if a.st.trip e.d e.c &&& e.k.tap.irqEn.toNat = 0 then a.wait e 8 0 agentUnknown else a)

/-- Whether the thread has something to perform before it tests a word at its home: an acquire, a release, a flush, or a step or store on
the word's bytes (11_ordering.md R305, R309, R313). -/
def Core.aheadOf (k : Core) (bytes : List Nat) : Bool :=
  k.memq.any fun m => m.kind.isAcquire || m.kind.isRelease || m.kind.isFlush || (overlaps m.kind.bytes bytes && !m.kind.isLoad)

/-- The same with the release stores to fabric addresses that are not acknowledged yet (15_fabric.md R407). -/
def Env.aheadOf (e : Env) (a : Acc) (bytes : List Nat) : Bool := e.k.aheadOf bytes || a.st.relOwed e.d e.c

/-- The bytes of an address read at their home, past what this core's L1 and its slice hold of the line (10_cluster.md R289). -/
def State.atHome (s : State) (d : Fin 4) (c : Fin 68) (pa n : Nat) : Nat × State :=
  (if s.cacheable pa then s.expose d c pa else s).readHome pa n

/-- A test of an 8-byte word at its home: checked as a read, with the home's poison (R300); a fabric address is refused, as R406 of
15_fabric.md names the form for no agent. -/
def Env.homeWord (e : Env) (a : Acc) (va : W64) (f : Acc → Nat → Nat → SlotRes) : SlotRes :=
  a.global (e.who a) .read va 8 false fun a x p =>
    if p == .fabric then .fault (dataFault 0x0C va) a
    else if p == .mem && a.st.homePoison e.d e.c x.pa then .fault (dataFault 0x09 va) a
    else
      let r := a.st.atHome e.d e.c x.pa 8
      f { a with st := r.2 } x.pa r.1

/-- TBWAIT (14_package.md R371): a test of a barrier word at its home, then an acquire at `.p`. -/
def opTbwait (d n : Fin 32) : SlotOp where
  srcs := [.s n, .s d]
  dsts := [.s d]
  body e a := e.homeWord a (e.k.readS n) fun a pa w =>
    let a := { a with post := a.post ++ [fun s => s.acquireLines e.d e.c .p] }
    let passes := barPh w != (e.k.readS d).getLsbD 0 || barExp w == 0
    let a := if passes && !e.aheadOf a (rangeOf pa 8) then a else a.wait e 8 pa agentUnknown
    e.ctl a (.s d) (if barPh w then 1 else 0)

/-! Instructions: each issues alone in its bundle. -/

def execCnop (s : State) : Host.Outcome State Fault Refusal := issueOne ⟨.always, .c .cnop⟩ opCnop s
def execBr (g : Guard) (bt : Fin 8) (s : State) : Host.Outcome State Fault Refusal := issueOne ⟨g, .c (.br bt)⟩ (opBr bt) s
def execBrp (g : Guard) (bt : Fin 8) (neg : Bool) (ps : Fin 8) (s : State) : Host.Outcome State Fault Refusal := issueOne ⟨g, .c (.brp bt neg ps)⟩ (opBrp bt neg ps) s
def execBrlc (g : Guard) (bt : Fin 8) (lc : Fin 4) (s : State) : Host.Outcome State Fault Refusal := issueOne ⟨g, .c (.brlc bt lc)⟩ (opBrlc bt lc) s
def execBrl (g : Guard) (bt bl : Fin 8) (s : State) : Host.Outcome State Fault Refusal := issueOne ⟨g, .c (.brl bt bl)⟩ (opBrl bt bl) s
def execBrx (g : Guard) (a : Fin 32) (s : State) : Host.Outcome State Fault Refusal := issueOne ⟨g, .c (.brx a)⟩ (opBrx a) s
def execHalt (g : Guard) (s : State) : Host.Outcome State Fault Refusal := issueOne ⟨g, .c .halt⟩ opHalt s
def execDelay (g : Guard) (n : BitVec 16) (s : State) : Host.Outcome State Fault Refusal := issueOne ⟨g, .c (.delay n)⟩ (opDelay n) s
def execPbr (g : Guard) (bd : Fin 8) (i : BitVec 18) (s : State) : Host.Outcome State Fault Refusal := issueOne ⟨g, .c (.pbr bd i)⟩ (opPbr bd i) s
def execPbrs (g : Guard) (d : Fin 8) (a : Fin 32) (s : State) : Host.Outcome State Fault Refusal := issueOne ⟨g, .c (.pbrs d a)⟩ (opPbrs d a) s
def execBget (g : Guard) (d : Fin 32) (a : Fin 8) (s : State) : Host.Outcome State Fault Refusal := issueOne ⟨g, .c (.bget d a)⟩ (opBget d a) s
def execBtok (g : Guard) (d : Fin 8) (e : Eng) (s : State) : Host.Outcome State Fault Refusal := issueOne ⟨g, .c (.btok d e)⟩ (opBtok d e) s
def execLcset (g : Guard) (d : Fin 4) (n : BitVec 16) (s : State) : Host.Outcome State Fault Refusal := issueOne ⟨g, .c (.lcset d n)⟩ (opLcset d n) s
def execLcsets (g : Guard) (d : Fin 4) (a : Fin 32) (s : State) : Host.Outcome State Fault Refusal := issueOne ⟨g, .c (.lcsets d a)⟩ (opLcsets d a) s
def execLcget (g : Guard) (d : Fin 32) (a : Fin 4) (s : State) : Host.Outcome State Fault Refusal := issueOne ⟨g, .c (.lcget d a)⟩ (opLcget d a) s
def execSkset (g : Guard) (d : Fin 3) (n : Bool) (s : State) : Host.Outcome State Fault Refusal := issueOne ⟨g, .c (.skset d n)⟩ (opSkset d n) s
def execSksets (g : Guard) (d : Fin 3) (a : Fin 32) (s : State) : Host.Outcome State Fault Refusal := issueOne ⟨g, .c (.sksets d a)⟩ (opSksets d a) s
def execSkget (g : Guard) (d : Fin 32) (a : Fin 3) (s : State) : Host.Outcome State Fault Refusal := issueOne ⟨g, .c (.skget d a)⟩ (opSkget d a) s
def execShape (g : Guard) (d : Fin 4) (a b : Fin 32) (s : State) : Host.Outcome State Fault Refusal := issueOne ⟨g, .c (.shape d a b)⟩ (opShape d a b) s
def execShapex (g : Guard) (d : Fin 4) (a : Fin 32) (imm : BitVec 32) (s : State) : Host.Outcome State Fault Refusal := issueOne ⟨g, .c (.shapex d a imm)⟩ (opShapex d a imm) s
def execShget (g : Guard) (d : Fin 32) (a : Fin 4) (s : State) : Host.Outcome State Fault Refusal := issueOne ⟨g, .c (.shget d a)⟩ (opShget d a) s
def execFdset (g : Guard) (d : Fin 4) (a : Fin 32) (s : State) : Host.Outcome State Fault Refusal := issueOne ⟨g, .c (.fdset d a)⟩ (opFdset d a) s
def execFdget (g : Guard) (d : Fin 32) (a : Fin 4) (s : State) : Host.Outcome State Fault Refusal := issueOne ⟨g, .c (.fdget d a)⟩ (opFdget d a) s
def execTrap (g : Guard) (n : BitVec 16) (s : State) : Host.Outcome State Fault Refusal := issueOne ⟨g, .c (.trap n)⟩ (opTrap n) s
def execRft (g : Guard) (s : State) : Host.Outcome State Fault Refusal := issueOne ⟨g, .c .rft⟩ opRft s
def execBrk (g : Guard) (n : BitVec 16) (s : State) : Host.Outcome State Fault Refusal := issueOne ⟨g, .c (.brk n)⟩ (opBrk n) s
def execCsrrd (g : Guard) (d : Fin 32) (n : BitVec 11) (s : State) : Host.Outcome State Fault Refusal := issueOne ⟨g, .c (.csrrd d n)⟩ (opCsrrd d n) s
def execCsrwr (g : Guard) (a : Fin 32) (n : BitVec 11) (s : State) : Host.Outcome State Fault Refusal := issueOne ⟨g, .c (.csrwr a n)⟩ (opCsrwr a n) s
def execCsrset (g : Guard) (a : Fin 32) (n : BitVec 11) (s : State) : Host.Outcome State Fault Refusal := issueOne ⟨g, .c (.csrset a n)⟩ (opCsrset a n) s
def execCsrclr (g : Guard) (a : Fin 32) (n : BitVec 11) (s : State) : Host.Outcome State Fault Refusal := issueOne ⟨g, .c (.csrclr a n)⟩ (opCsrclr a n) s
def execScall (g : Guard) (n : BitVec 16) (s : State) : Host.Outcome State Fault Refusal := issueOne ⟨g, .c (.scall n)⟩ (opScall n) s
def execSret (g : Guard) (s : State) : Host.Outcome State Fault Refusal := issueOne ⟨g, .c .sret⟩ opSret s
def execWfi (g : Guard) (s : State) : Host.Outcome State Fault Refusal := issueOne ⟨g, .c .wfi⟩ opWfi s
def execTbwait (g : Guard) (d a : Fin 32) (s : State) : Host.Outcome State Fault Refusal := issueOne ⟨g, .c (.tbwait d a)⟩ (opTbwait d a) s

end Sys2Proof.Machine
end

