-- ==== Sys2Proof/Machine/Scalar.lean ====
section
/-! DEFINITION. Scalar-slot instructions (04_control_scalar.md R114 to R118). -/

namespace Sys2Proof.Machine

open Sys2Proof

/-- A scalar result, which also updates bp.s (R114). -/
def Env.scalar (e : Env) (a : Acc) (lat : Nat) (d : Fin 32) (v : W64) : SlotRes := e.toS a lat d v (some 2)

/-- The two-operand forms (R115). -/
def opAlu (o : SAlu) (d a b : Fin 32) : SlotOp where
  srcs := [.s a, .s b]
  dsts := [.s d]
  body e acc := e.scalar acc o.latency d (o.eval (e.k.readS a) (e.k.readS b))

/-- The forms whose second operand is an immediate (R116, R117). -/
def opAluImm (o : SAlu) (d a : Fin 32) (i : W64) : SlotOp where
  srcs := [.s a]
  dsts := [.s d]
  body e acc := e.scalar acc o.latency d (o.eval (e.k.readS a) i)

/-- The one-operand forms (R115, R118). -/
def opUnary (f : W64 → W64) (d a : Fin 32) : SlotOp where
  srcs := [.s a]
  dsts := [.s d]
  body e acc := e.scalar acc 1 d (f (e.k.readS a))

/-- A result that reads no register but VL, the cycle or a predicate (R118). -/
def opRead (f : Env → Nat) (d : Fin 32) : SlotOp where
  dsts := [.s d]
  body e acc := e.scalar acc 1 d (BitVec.ofNat 64 (f e))

def opSnop : SlotOp := opNothing

def opAdd (d a b : Fin 32) : SlotOp := opAlu .add d a b
def opSub (d a b : Fin 32) : SlotOp := opAlu .sub d a b
def opMul (d a b : Fin 32) : SlotOp := opAlu .mul d a b
def opMulh (d a b : Fin 32) : SlotOp := opAlu .mulh d a b
def opMulhu (d a b : Fin 32) : SlotOp := opAlu .mulhu d a b
def opAnd (d a b : Fin 32) : SlotOp := opAlu .and d a b
def opOr (d a b : Fin 32) : SlotOp := opAlu .or d a b
def opXor (d a b : Fin 32) : SlotOp := opAlu .xor d a b
def opAndn (d a b : Fin 32) : SlotOp := opAlu .andn d a b
def opOrn (d a b : Fin 32) : SlotOp := opAlu .orn d a b
def opShl (d a b : Fin 32) : SlotOp := opAlu .shl d a b
def opShr (d a b : Fin 32) : SlotOp := opAlu .shr d a b
def opSra (d a b : Fin 32) : SlotOp := opAlu .sra d a b
def opRol (d a b : Fin 32) : SlotOp := opAlu .rol d a b
def opMin (d a b : Fin 32) : SlotOp := opAlu .min d a b
def opMax (d a b : Fin 32) : SlotOp := opAlu .max d a b
def opMinu (d a b : Fin 32) : SlotOp := opAlu .minu d a b
def opMaxu (d a b : Fin 32) : SlotOp := opAlu .maxu d a b
def opSlt (d a b : Fin 32) : SlotOp := opAlu .slt d a b
def opSltu (d a b : Fin 32) : SlotOp := opAlu .sltu d a b
def opSeq (d a b : Fin 32) : SlotOp := opAlu .seq d a b
def opSne (d a b : Fin 32) : SlotOp := opAlu .sne d a b

def opAddi (d a : Fin 32) (i : BitVec 11) : SlotOp := opAluImm .add d a (i.signExtend 64)
def opMuli (d a : Fin 32) (i : BitVec 11) : SlotOp := opAluImm .mul d a (i.signExtend 64)
def opAndi (d a : Fin 32) (i : BitVec 11) : SlotOp := opAluImm .and d a (i.signExtend 64)
def opOri (d a : Fin 32) (i : BitVec 11) : SlotOp := opAluImm .or d a (i.signExtend 64)
def opXori (d a : Fin 32) (i : BitVec 11) : SlotOp := opAluImm .xor d a (i.signExtend 64)
def opShli (d a : Fin 32) (i : BitVec 11) : SlotOp := opAluImm .shl d a (i.signExtend 64)
def opShri (d a : Fin 32) (i : BitVec 11) : SlotOp := opAluImm .shr d a (i.signExtend 64)
def opSrai (d a : Fin 32) (i : BitVec 11) : SlotOp := opAluImm .sra d a (i.signExtend 64)
def opRoli (d a : Fin 32) (i : BitVec 11) : SlotOp := opAluImm .rol d a (i.signExtend 64)
def opSlti (d a : Fin 32) (i : BitVec 11) : SlotOp := opAluImm .slt d a (i.signExtend 64)
def opSltui (d a : Fin 32) (i : BitVec 11) : SlotOp := opAluImm .sltu d a (i.signExtend 64)
def opSeqi (d a : Fin 32) (i : BitVec 11) : SlotOp := opAluImm .seq d a (i.signExtend 64)
def opMini (d a : Fin 32) (i : BitVec 11) : SlotOp := opAluImm .min d a (i.signExtend 64)
def opMaxi (d a : Fin 32) (i : BitVec 11) : SlotOp := opAluImm .max d a (i.signExtend 64)

def opAddx (d a : Fin 32) (imm : BitVec 32) : SlotOp := opAluImm .add d a (imm.signExtend 64)
def opAndx (d a : Fin 32) (imm : BitVec 32) : SlotOp := opAluImm .and d a (imm.signExtend 64)
def opOrx (d a : Fin 32) (imm : BitVec 32) : SlotOp := opAluImm .or d a (imm.signExtend 64)
def opXorx (d a : Fin 32) (imm : BitVec 32) : SlotOp := opAluImm .xor d a (imm.signExtend 64)

def opClz (d a : Fin 32) : SlotOp := opUnary (fun x => BitVec.ofNat 64 (clzBits 64 x.toNat)) d a
def opMov (d a : Fin 32) : SlotOp := opUnary (fun x => x) d a
def opCtz (d a : Fin 32) : SlotOp := opUnary (fun x => BitVec.ofNat 64 (ctzBits 64 x.toNat)) d a
def opPopc (d a : Fin 32) : SlotOp := opUnary (fun x => BitVec.ofNat 64 (popcBits 64 x.toNat)) d a
def opBswap (d a : Fin 32) : SlotOp := opUnary byteSwap d a

def opSext (d a : Fin 32) (w : Width) : SlotOp := opUnary (sextTo64 (widthBits w)) d a
def opZext (d a : Fin 32) (w : Width) : SlotOp := opUnary (zextTo64 (widthBits w)) d a

/-- LI (R117). -/
def opLi (d : Fin 32) (imm : BitVec 32) : SlotOp := opRead (fun _ => (imm.signExtend 64).toNat) d

/-- LIH keeps the low half of its destination (R117). -/
def opLih (d : Fin 32) (imm : BitVec 32) : SlotOp where
  srcs := [.s d]
  dsts := [.s d]
  body e acc := e.scalar acc 1 d (BitVec.ofNat 64 ((e.k.readS d).toNat % 2 ^ 32 + imm.toNat * 2 ^ 32))

/-- SPSET: lane i is set where i is below sA; no latch (R114, R118). -/
def opSpset (d : Fin 8) (a : Fin 32) : SlotOp where
  srcs := [.s a]
  body e acc :=
    let n := Nat.min (e.k.readS a).toNat 256
    .ok (acc.push { e.pend 1 (.p d) (2 ^ n - 1) none with en := 2 ^ 256 - 1 })

def opSpany (d : Fin 32) (a : Fin 8) : SlotOp := opRead (fun e => if e.k.readP a % 2 ^ e.vl = 0 then 0 else 1) d
def opSpall (d : Fin 32) (a : Fin 8) : SlotOp := opRead (fun e => if e.k.readP a % 2 ^ e.vl = allLanes e.vl then 1 else 0) d
def opSpcnt (d : Fin 32) (a : Fin 8) : SlotOp := opRead (fun e => popcBits 256 (e.k.readP a % 2 ^ e.vl)) d

/-- SCYC: the schedule cycle of issue, 48 bits; a Taproot core gives TRCYC (14_package.md Table 14-2). -/
def opScyc (d : Fin 32) : SlotOp := opRead (fun e => if isTaproot e.c then e.iss else e.iss % 2 ^ 48) d
def opSvl (d : Fin 32) : SlotOp := opRead (fun e => e.vl) d

/-! Instructions: each issues alone in its bundle. -/

def execSnop (s : State) : Host.Outcome State Fault Refusal := issueOne ⟨.always, .s .snop⟩ opSnop s
def execAdd (g : Guard) (d a b : Fin 32) (s : State) : Host.Outcome State Fault Refusal := issueOne ⟨g, .s (.add d a b)⟩ (opAdd d a b) s
def execSub (g : Guard) (d a b : Fin 32) (s : State) : Host.Outcome State Fault Refusal := issueOne ⟨g, .s (.sub d a b)⟩ (opSub d a b) s
def execMul (g : Guard) (d a b : Fin 32) (s : State) : Host.Outcome State Fault Refusal := issueOne ⟨g, .s (.mul d a b)⟩ (opMul d a b) s
def execMulh (g : Guard) (d a b : Fin 32) (s : State) : Host.Outcome State Fault Refusal := issueOne ⟨g, .s (.mulh d a b)⟩ (opMulh d a b) s
def execMulhu (g : Guard) (d a b : Fin 32) (s : State) : Host.Outcome State Fault Refusal := issueOne ⟨g, .s (.mulhu d a b)⟩ (opMulhu d a b) s
def execAnd (g : Guard) (d a b : Fin 32) (s : State) : Host.Outcome State Fault Refusal := issueOne ⟨g, .s (.and d a b)⟩ (opAnd d a b) s
def execOr (g : Guard) (d a b : Fin 32) (s : State) : Host.Outcome State Fault Refusal := issueOne ⟨g, .s (.or d a b)⟩ (opOr d a b) s
def execXor (g : Guard) (d a b : Fin 32) (s : State) : Host.Outcome State Fault Refusal := issueOne ⟨g, .s (.xor d a b)⟩ (opXor d a b) s
def execAndn (g : Guard) (d a b : Fin 32) (s : State) : Host.Outcome State Fault Refusal := issueOne ⟨g, .s (.andn d a b)⟩ (opAndn d a b) s
def execOrn (g : Guard) (d a b : Fin 32) (s : State) : Host.Outcome State Fault Refusal := issueOne ⟨g, .s (.orn d a b)⟩ (opOrn d a b) s
def execShl (g : Guard) (d a b : Fin 32) (s : State) : Host.Outcome State Fault Refusal := issueOne ⟨g, .s (.shl d a b)⟩ (opShl d a b) s
def execShr (g : Guard) (d a b : Fin 32) (s : State) : Host.Outcome State Fault Refusal := issueOne ⟨g, .s (.shr d a b)⟩ (opShr d a b) s
def execSra (g : Guard) (d a b : Fin 32) (s : State) : Host.Outcome State Fault Refusal := issueOne ⟨g, .s (.sra d a b)⟩ (opSra d a b) s
def execRol (g : Guard) (d a b : Fin 32) (s : State) : Host.Outcome State Fault Refusal := issueOne ⟨g, .s (.rol d a b)⟩ (opRol d a b) s
def execMin (g : Guard) (d a b : Fin 32) (s : State) : Host.Outcome State Fault Refusal := issueOne ⟨g, .s (.min d a b)⟩ (opMin d a b) s
def execMax (g : Guard) (d a b : Fin 32) (s : State) : Host.Outcome State Fault Refusal := issueOne ⟨g, .s (.max d a b)⟩ (opMax d a b) s
def execMinu (g : Guard) (d a b : Fin 32) (s : State) : Host.Outcome State Fault Refusal := issueOne ⟨g, .s (.minu d a b)⟩ (opMinu d a b) s
def execMaxu (g : Guard) (d a b : Fin 32) (s : State) : Host.Outcome State Fault Refusal := issueOne ⟨g, .s (.maxu d a b)⟩ (opMaxu d a b) s
def execSlt (g : Guard) (d a b : Fin 32) (s : State) : Host.Outcome State Fault Refusal := issueOne ⟨g, .s (.slt d a b)⟩ (opSlt d a b) s
def execSltu (g : Guard) (d a b : Fin 32) (s : State) : Host.Outcome State Fault Refusal := issueOne ⟨g, .s (.sltu d a b)⟩ (opSltu d a b) s
def execSeq (g : Guard) (d a b : Fin 32) (s : State) : Host.Outcome State Fault Refusal := issueOne ⟨g, .s (.seq d a b)⟩ (opSeq d a b) s
def execSne (g : Guard) (d a b : Fin 32) (s : State) : Host.Outcome State Fault Refusal := issueOne ⟨g, .s (.sne d a b)⟩ (opSne d a b) s
def execClz (g : Guard) (d a : Fin 32) (s : State) : Host.Outcome State Fault Refusal := issueOne ⟨g, .s (.clz d a)⟩ (opClz d a) s
def execMov (g : Guard) (d a : Fin 32) (s : State) : Host.Outcome State Fault Refusal := issueOne ⟨g, .s (.mov d a)⟩ (opMov d a) s
def execCtz (g : Guard) (d a : Fin 32) (s : State) : Host.Outcome State Fault Refusal := issueOne ⟨g, .s (.ctz d a)⟩ (opCtz d a) s
def execPopc (g : Guard) (d a : Fin 32) (s : State) : Host.Outcome State Fault Refusal := issueOne ⟨g, .s (.popc d a)⟩ (opPopc d a) s
def execSext (g : Guard) (d a : Fin 32) (w : Width) (s : State) : Host.Outcome State Fault Refusal := issueOne ⟨g, .s (.sext d a w)⟩ (opSext d a w) s
def execZext (g : Guard) (d a : Fin 32) (w : Width) (s : State) : Host.Outcome State Fault Refusal := issueOne ⟨g, .s (.zext d a w)⟩ (opZext d a w) s
def execAddi (g : Guard) (d a : Fin 32) (i : BitVec 11) (s : State) : Host.Outcome State Fault Refusal := issueOne ⟨g, .s (.addi d a i)⟩ (opAddi d a i) s
def execMuli (g : Guard) (d a : Fin 32) (i : BitVec 11) (s : State) : Host.Outcome State Fault Refusal := issueOne ⟨g, .s (.muli d a i)⟩ (opMuli d a i) s
def execAndi (g : Guard) (d a : Fin 32) (i : BitVec 11) (s : State) : Host.Outcome State Fault Refusal := issueOne ⟨g, .s (.andi d a i)⟩ (opAndi d a i) s
def execOri (g : Guard) (d a : Fin 32) (i : BitVec 11) (s : State) : Host.Outcome State Fault Refusal := issueOne ⟨g, .s (.ori d a i)⟩ (opOri d a i) s
def execXori (g : Guard) (d a : Fin 32) (i : BitVec 11) (s : State) : Host.Outcome State Fault Refusal := issueOne ⟨g, .s (.xori d a i)⟩ (opXori d a i) s
def execShli (g : Guard) (d a : Fin 32) (i : BitVec 11) (s : State) : Host.Outcome State Fault Refusal := issueOne ⟨g, .s (.shli d a i)⟩ (opShli d a i) s
def execShri (g : Guard) (d a : Fin 32) (i : BitVec 11) (s : State) : Host.Outcome State Fault Refusal := issueOne ⟨g, .s (.shri d a i)⟩ (opShri d a i) s
def execSrai (g : Guard) (d a : Fin 32) (i : BitVec 11) (s : State) : Host.Outcome State Fault Refusal := issueOne ⟨g, .s (.srai d a i)⟩ (opSrai d a i) s
def execRoli (g : Guard) (d a : Fin 32) (i : BitVec 11) (s : State) : Host.Outcome State Fault Refusal := issueOne ⟨g, .s (.roli d a i)⟩ (opRoli d a i) s
def execSlti (g : Guard) (d a : Fin 32) (i : BitVec 11) (s : State) : Host.Outcome State Fault Refusal := issueOne ⟨g, .s (.slti d a i)⟩ (opSlti d a i) s
def execSltui (g : Guard) (d a : Fin 32) (i : BitVec 11) (s : State) : Host.Outcome State Fault Refusal := issueOne ⟨g, .s (.sltui d a i)⟩ (opSltui d a i) s
def execSeqi (g : Guard) (d a : Fin 32) (i : BitVec 11) (s : State) : Host.Outcome State Fault Refusal := issueOne ⟨g, .s (.seqi d a i)⟩ (opSeqi d a i) s
def execMini (g : Guard) (d a : Fin 32) (i : BitVec 11) (s : State) : Host.Outcome State Fault Refusal := issueOne ⟨g, .s (.mini d a i)⟩ (opMini d a i) s
def execMaxi (g : Guard) (d a : Fin 32) (i : BitVec 11) (s : State) : Host.Outcome State Fault Refusal := issueOne ⟨g, .s (.maxi d a i)⟩ (opMaxi d a i) s
def execLi (g : Guard) (d : Fin 32) (imm : BitVec 32) (s : State) : Host.Outcome State Fault Refusal := issueOne ⟨g, .s (.li d imm)⟩ (opLi d imm) s
def execLih (g : Guard) (d : Fin 32) (imm : BitVec 32) (s : State) : Host.Outcome State Fault Refusal := issueOne ⟨g, .s (.lih d imm)⟩ (opLih d imm) s
def execAddx (g : Guard) (d a : Fin 32) (imm : BitVec 32) (s : State) : Host.Outcome State Fault Refusal := issueOne ⟨g, .s (.addx d a imm)⟩ (opAddx d a imm) s
def execAndx (g : Guard) (d a : Fin 32) (imm : BitVec 32) (s : State) : Host.Outcome State Fault Refusal := issueOne ⟨g, .s (.andx d a imm)⟩ (opAndx d a imm) s
def execOrx (g : Guard) (d a : Fin 32) (imm : BitVec 32) (s : State) : Host.Outcome State Fault Refusal := issueOne ⟨g, .s (.orx d a imm)⟩ (opOrx d a imm) s
def execXorx (g : Guard) (d a : Fin 32) (imm : BitVec 32) (s : State) : Host.Outcome State Fault Refusal := issueOne ⟨g, .s (.xorx d a imm)⟩ (opXorx d a imm) s
def execSpset (g : Guard) (d : Fin 8) (a : Fin 32) (s : State) : Host.Outcome State Fault Refusal := issueOne ⟨g, .s (.spset d a)⟩ (opSpset d a) s
def execSpany (g : Guard) (d : Fin 32) (a : Fin 8) (s : State) : Host.Outcome State Fault Refusal := issueOne ⟨g, .s (.spany d a)⟩ (opSpany d a) s
def execSpall (g : Guard) (d : Fin 32) (a : Fin 8) (s : State) : Host.Outcome State Fault Refusal := issueOne ⟨g, .s (.spall d a)⟩ (opSpall d a) s
def execSpcnt (g : Guard) (d : Fin 32) (a : Fin 8) (s : State) : Host.Outcome State Fault Refusal := issueOne ⟨g, .s (.spcnt d a)⟩ (opSpcnt d a) s
def execScyc (g : Guard) (d : Fin 32) (s : State) : Host.Outcome State Fault Refusal := issueOne ⟨g, .s (.scyc d)⟩ (opScyc d) s
def execSvl (g : Guard) (d : Fin 32) (s : State) : Host.Outcome State Fault Refusal := issueOne ⟨g, .s (.svl d)⟩ (opSvl d) s
def execBswap (g : Guard) (d a : Fin 32) (s : State) : Host.Outcome State Fault Refusal := issueOne ⟨g, .s (.bswap d a)⟩ (opBswap d a) s

end Sys2Proof.Machine
end

