-- ==== Sys2Proof/Machine/Sync.lean ====
section
/-! DEFINITION. Barriers, membership sets and launches (10_cluster.md R287 to R300; 13_scheduling.md R346 to R350; 14_package.md R370). -/

namespace Sys2Proof.Machine

open Sys2Proof

/-- The commands that an earlier QFENCE has joined (04_control_scalar.md R129). -/
def Engines.joined (x : Engines) : List Nat := x.fences.flatMap fun f => f.cmds

/-- Virtual address of one of the thread's own barrier words (10_cluster.md R287). -/
def Env.barVa (e : Env) (n : Nat) : W64 := e.k.thr.barBase + BitVec.ofNat 64 (8 * n)

/-- The checks of a barrier form on its word (R292, R300). -/
def Env.barWord (e : Env) (a : Acc) (va : W64) (kind : AccKind) (f : Acc → Nat → SlotRes) : SlotRes :=
  a.global (e.who a) kind va 8 false fun a x p =>
    if p == .mem && a.st.homePoison e.d e.c x.pa then .fault (dataFault 0x09 va) a else f a x.pa

/-- A form on one of the thread's own barriers: LAUNCH without an area (R292). -/
def Env.ownBar (e : Env) (a : Acc) (n : Nat) (kind : AccKind) (f : Acc → Nat → SlotRes) : SlotRes :=
  if e.k.thr.barBase = 0 then .fault { cause := .launch } a else e.barWord a (e.barVa n) kind f

def opBarinit (src : Fin 32) (n : BitVec 11) : SlotOp where
  srcs := [.s src]
  body e a := e.ownBar a n.toNat .atomic fun a pa =>
    .ok (a.mem e (.arrive (.init ((e.k.readS src).toNat % 2 ^ 16)) pa .c []))

def opBararv (sc : Scope) (n : BitVec 11) : SlotOp where
  body e a := e.ownBar a n.toNat .atomic fun a pa => .ok (a.mem e (.arrive .arrive pa sc e.k.eng.joined))

/-- BARWAIT (R290, R293): what the thread has to perform first comes first; the test and the consumption are one step. -/
def opBarwait (sc : Scope) (n : BitVec 11) : SlotOp where
  body e a := e.ownBar a n.toNat .read fun a pa =>
    let r := a.st.atHome e.d e.c pa 8
    let step (s : State) : State := (s.stepWord pa barConsume).acquireLines e.d e.c sc
    let a := { a with st := r.2, post := a.post ++ [step] }
    .ok (if !e.aheadOf a (rangeOf pa 8) && barPasses r.1 then a else a.waitUntil e 8 n.toNat (.phase (pa / 8 * 8)))

/-- BARREM (R291, R297; 14_package.md R370). -/
def opBarrem (src : Fin 32) (sc : Scope) : SlotOp where
  srcs := [.s src]
  body e a :=
    let v := (e.k.readS src).toNat
    if v.testBit 63 then
      if isTaproot e.c || bits v 62 5 != 0 then .fault { cause := .launch } a
      else .ok (a.mem e (.arrive (.remSet (bits v 4 0)) 0 sc e.k.eng.joined))
    else e.barWord a (e.k.readS src) .atomic fun a pa => .ok (a.mem e (.arrive .remAddr pa sc e.k.eng.joined))

/-- A bundle waits before issue for the answer of its slice or of the Nursery (R295, R296; 13_scheduling.md R348). -/
def Acc.answer (a : Acc) (e : Env) (object : Nat) (f : Acc → SlotRes) : SlotRes :=
  if a.st.late then .ok (a.wait e 8 object agentUnknown) else f a

/-- GJOIN (R295). A poisoned bound word faults it as any issuing barrier form (R300; DEDUCED, log 89). -/
def opGjoin (src : Fin 32) : SlotOp where
  srcs := [.s src]
  body e a :=
    let v := (e.k.readS src).toNat
    let set := bits v 4 0
    let cl := clusterOf e.c
    if bits v 15 5 != 0 || bits v 63 26 != 0 || e.k.thr.barBase = 0 then .fault { cause := .launch } a
    else e.barWord a (e.barVa (bits v 25 16)) .atomic fun a pa =>
      a.answer e set fun a =>
        let m : Member := ⟨e.d, e.k.thr.idx, pa, false⟩
        if (a.st.setJoin e.d cl set m).isNone then .fault { cause := .launch } a
        else .ok { a with post := a.post ++ [fun s => (s.setJoin e.d cl set m).getD s] }

/-- GLEAVE (R296). It names no word, and BARBASE = 0 does not fault it (R286, R292; DEDUCED, log 89). -/
def opGleave (src : Fin 32) : SlotOp where
  srcs := [.s src]
  body e a :=
    let v := (e.k.readS src).toNat
    if bits v 63 5 != 0 then .fault { cause := .launch } a
    else a.answer e (bits v 4 0) fun a =>
      let others := a.st.sets e.d (clusterOf e.c) (bits v 4 0)
      .ok { a with post := a.post ++ [fun s =>
        (s.setLeave e.d (clusterOf e.c) (bits v 4 0) e.d e.k.thr.idx).noteSet (.core e.d e.c) others] }

/-- A record operand as one number: 4,096 × die + index. -/
def recNumber (r : Fin 4 × Nat) : Nat := 4096 * r.1.val + r.2

/-- LPATCH (R347, R348). A record on a die that no route leads to is an access answered as uncorrectable (14_package.md R365); FADDR then holds the
record operand (DESIGN CHOICE, log 84). -/
def opLpatch (rec val : Fin 32) (k : Fin 8) : SlotOp where
  srcs := [.s rec, .s val]
  body e a :=
    match a.st.recOperand (e.k.readS rec) with
    | none => .fault { cause := .launch } a
    | some r =>
      if !a.st.dieRoute e.d.val r.1.val then .fault (dataFault 0x09 (e.k.readS rec)) a
      else a.answer e (recNumber r) fun a =>
      if !a.st.recOpen r.1 r.2 (e.who a).asn then .fault { cause := .launch } a
      else .ok (a.mem e (.lpatch (recNumber r) k (e.k.readS val)))

/-- LARM (R347, R349; 14_package.md R365). -/
def opLarm (d rec : Fin 32) : SlotOp where
  srcs := [.s rec]
  dsts := [.s d]
  body e a :=
    match a.st.recOperand (e.k.readS rec) with
    | none => .fault { cause := .launch } a
    | some r =>
      if !a.st.dieRoute e.d.val r.1.val then .fault (dataFault 0x09 (e.k.readS rec)) a
      else .ok (a.mem e (.larm (.s d) (recNumber r) e.k.eng.joined))

/-- LWAIT (R350). -/
def opLwait (n : Fin 16) : SlotOp where
  srcs := [.a n]
  body e a := e.homeWord a (e.k.readA n) fun a pa w =>
    let a := { a with post := a.post ++ [fun s => s.acquireLines e.d e.c .p] }
    let wait : WaitInfo := { kind := 8, object := (e.k.readA n).toNat % 2 ^ 32, agent := agentUnknown, slot := e.slot,
                             lwait := some (e.k.readA n), ends := some (.zero pa) }
    .ok (if w = 0 && !e.aheadOf a (rangeOf pa 8) then a else { a with waits := a.waits ++ [wait] })

/-! Instructions: each issues alone in its bundle. -/

def execBarinit (g : Guard) (a : Fin 32) (n : BitVec 11) (s : State) : Host.Outcome State Fault Refusal := issueOne ⟨g, .c (.barinit a n)⟩ (opBarinit a n) s
def execBararv (g : Guard) (sc : Scope) (n : BitVec 11) (s : State) : Host.Outcome State Fault Refusal := issueOne ⟨g, .c (.bararv sc n)⟩ (opBararv sc n) s
def execBarwait (g : Guard) (sc : Scope) (n : BitVec 11) (s : State) : Host.Outcome State Fault Refusal := issueOne ⟨g, .c (.barwait sc n)⟩ (opBarwait sc n) s
def execBarrem (g : Guard) (a : Fin 32) (sc : Scope) (s : State) : Host.Outcome State Fault Refusal := issueOne ⟨g, .c (.barrem a sc)⟩ (opBarrem a sc) s
def execGjoin (g : Guard) (a : Fin 32) (s : State) : Host.Outcome State Fault Refusal := issueOne ⟨g, .c (.gjoin a)⟩ (opGjoin a) s
def execGleave (g : Guard) (a : Fin 32) (s : State) : Host.Outcome State Fault Refusal := issueOne ⟨g, .c (.gleave a)⟩ (opGleave a) s
def execLpatch (g : Guard) (a b : Fin 32) (k : Fin 8) (s : State) : Host.Outcome State Fault Refusal := issueOne ⟨g, .c (.lpatch a b k)⟩ (opLpatch a b k) s
def execLarm (g : Guard) (d a : Fin 32) (s : State) : Host.Outcome State Fault Refusal := issueOne ⟨g, .c (.larm d a)⟩ (opLarm d a) s
def execLwait (g : Guard) (a : Fin 16) (s : State) : Host.Outcome State Fault Refusal := issueOne ⟨g, .c (.lwait a)⟩ (opLwait a) s

end Sys2Proof.Machine
end

