-- ==== Sys2Proof/Machine/Address.lean ====
section
/-! DEFINITION. Address-slot instructions (04_control_scalar.md R119 to R132; 14_package.md R369). -/

namespace Sys2Proof.Machine

open Sys2Proof

/-- An address-slot result in an a register, which also updates bp.a (R119). -/
def Env.address (e : Env) (a : Acc) (d : Fin 16) (v : W64) : SlotRes := .ok (a.push (e.pend 1 (.a d) v.toNat (some 3)))

def opAnop : SlotOp := opNothing

def opAadd (d n : Fin 16) (b : Fin 32) : SlotOp where
  srcs := [.a n, .s b]
  dsts := [.a d]
  body e a := e.address a d (e.k.readA n + e.k.readS b)

def opAsub (d n : Fin 16) (b : Fin 32) : SlotOp where
  srcs := [.a n, .s b]
  dsts := [.a d]
  body e a := e.address a d (e.k.readA n - e.k.readS b)

def opAadda (d n b : Fin 16) : SlotOp where
  srcs := [.a n, .a b]
  dsts := [.a d]
  body e a := e.address a d (e.k.readA n + e.k.readA b)

def opAmov (d n : Fin 16) : SlotOp where
  srcs := [.a n]
  dsts := [.a d]
  body e a := e.address a d (e.k.readA n)

def opAsets (d : Fin 16) (n : Fin 32) : SlotOp where
  srcs := [.s n]
  dsts := [.a d]
  body e a := e.address a d (e.k.readS n)

def opAgets (d : Fin 32) (n : Fin 16) : SlotOp where
  srcs := [.a n]
  dsts := [.s d]
  body e a := e.toS a 1 d (e.k.readA n) (some 3)

/-- aD := aA plus an immediate (AADDI, AADDX). -/
def opAaddImm (d n : Fin 16) (i : W64) : SlotOp where
  srcs := [.a n]
  dsts := [.a d]
  body e a := e.address a d (e.k.readA n + i)

def opAaddi (d n : Fin 16) (i : BitVec 11) : SlotOp := opAaddImm d n (i.signExtend 64)
def opAaddx (d n : Fin 16) (imm : BitVec 32) : SlotOp := opAaddImm d n (imm.signExtend 64)

def opAli (d : Fin 16) (imm : BitVec 32) : SlotOp where
  dsts := [.a d]
  body e a := e.address a d (imm.signExtend 64)

def opAlih (d : Fin 16) (imm : BitVec 32) : SlotOp where
  srcs := [.a d]
  dsts := [.a d]
  body e a := e.address a d (BitVec.ofNat 64 ((e.k.readA d).toNat % 2 ^ 32 + imm.toNat * 2 ^ 32))

/-- A checked scratchpad access of `w` bytes at a GMEM address, with its post-increment (R120, R121). -/
def Env.spadGmem (e : Env) (a : Acc) (w : Nat) (ab : Fin 16) (pi : Bool) (i : BitVec 11) (r wr : Bool) (f : Acc → Nat → SlotRes) :
    SlotRes :=
  let ea := e.ea ab pi (i.signExtend 64)
  match spadCheck ea w with
  | some x => .fault x a
  | none =>
    e.spadAccess a r wr (rangeOf ea.toNat w) fun a => f (e.postInc a pi ab (i.signExtend 64) (some 3)) ea.toNat

/-- LDSP (R121): the bytes as they stand before the bundle's stores. -/
def opLdsp (w : Nat) (fmt : LdFmt) (d : Fin 32) (ab : Fin 16) (pi : Bool) (i : BitVec 11) : SlotOp where
  srcs := [.a ab]
  dsts := [.s d, .a ab]
  body e a := e.spadGmem a w ab pi i true false fun a ea =>
    e.toS a 4 d (BitVec.ofNat 64 (fmt.apply (readLE e.k.spad ea w))) (some 3)

/-- STSP (R121, R38). -/
def opStsp (w : Nat) (d : Fin 32) (ab : Fin 16) (pi : Bool) (i : BitVec 11) : SlotOp where
  srcs := [.a ab, .s d]
  dsts := [.a ab]
  body e a := e.spadGmem a w ab pi i false true fun a ea =>
    .ok { a with spad := writeLE a.spad ea w (e.k.readS d).toNat }

/-- A checked global access of `w` bytes (R122, Table 4-10). -/
def Env.globalAt (e : Env) (a : Acc) (w : Nat) (ea : W64) (kind : AccKind) (f : Acc → Xlate → SlotRes) : SlotRes :=
  a.global (e.who a) kind ea w (!kind.isWrite) fun a x _ =>
    e.globalAccess a (!kind.isWrite) kind.isWrite (rangeOf ea.toNat w) fun a => f a x

/-- The bytes of a load, each with its place. -/
def loadCellsAt (pa w : Nat) : List (Nat × Nat) := (List.range w).map fun i => (i, pa + i)

/-- LDG (R122). -/
def opLdg (w : Nat) (fmt : LdFmt) (d : Fin 32) (ab : Fin 16) (pi : Bool) (i : BitVec 11) : SlotOp where
  srcs := [.a ab]
  dsts := [.s d, .a ab]
  body e a := e.globalAt a w (e.ea ab pi (i.signExtend 64)) .read fun a x =>
    .ok ((e.postInc a pi ab (i.signExtend 64) (some 3)).mem e (.load (.s d) fmt (loadCellsAt x.pa w) false x.cw none))

/-- STG (R122). -/
def opStg (w : Nat) (d : Fin 32) (ab : Fin 16) (pi : Bool) (i : BitVec 11) : SlotOp where
  srcs := [.a ab, .s d]
  dsts := [.a ab]
  body e a := e.globalAt a w (e.ea ab pi (i.signExtend 64)) .write fun a x =>
    .ok ((e.postInc a pi ab (i.signExtend 64) (some 3)).mem e (.store (cellsOf x.pa (e.k.readS d).toNat w) x.cw false))

/-- LDAQ (R128). -/
def opLdaq (w : Nat) (d : Fin 32) (ab : Fin 16) (sc : Scope) (i : BitVec 9) : SlotOp where
  srcs := [.a ab]
  dsts := [.s d]
  body e a :=
    let ea := e.ea ab false (i.signExtend 64)
    a.consume (e.who a) .read ea w (fun s pa => s.acquirePoison e.d e.c sc pa) fun a x _ =>
      e.globalAccess a true false (rangeOf ea.toNat w) fun a =>
        .ok (a.mem e (.load (.s d) (.sext (8 * w)) (loadCellsAt x.pa w) false x.cw (some sc)))

/-- STRL (R129). -/
def opStrl (w : Nat) (d : Fin 32) (ab : Fin 16) (sc : Scope) (i : BitVec 9) : SlotOp where
  srcs := [.a ab, .s d]
  body e a := e.globalAt a w (e.ea ab false (i.signExtend 64)) .write fun a x =>
    .ok (a.mem e (.release (cellsOf x.pa (e.k.readS d).toNat w) sc e.k.eng.joined))

/-- A full/empty form on the word at EA (R125, R126): it waits for what `needs` names of word number EA / 4, then `f` takes effect. -/
def Env.fullEmpty (e : Env) (a : Acc) (ab : Fin 16) (pi : Bool) (i : BitVec 11) (needs : Nat → Option Until)
    (f : Acc → Nat → Nat → SlotRes) : SlotRes :=
  e.spadGmem a 4 ab pi i true true fun a ea =>
    let a := match needs (ea / 4) with
      | none => a
      | some u => if a.st.endsMet e.d e.k u then a else a.waitUntil e 4 ea u
    f a ea (readLE e.k.spad ea 4)

def opLdf (d : Fin 32) (ab : Fin 16) (pi : Bool) (i : BitVec 11) : SlotOp where
  srcs := [.a ab]
  dsts := [.s d, .a ab]
  body e a := e.fullEmpty a ab pi i (fun n => some (.full n)) fun a _ w => e.toS a 4 d (BitVec.ofNat 64 w) (some 3)

def opLdfe (d : Fin 32) (ab : Fin 16) (pi : Bool) (i : BitVec 11) : SlotOp where
  srcs := [.a ab]
  dsts := [.s d, .a ab]
  body e a := e.fullEmpty a ab pi i (fun n => some (.full n)) fun a ea w =>
    e.toS { a with full := removeNat (ea / 4) a.full } 4 d (BitVec.ofNat 64 w) (some 3)

def opSte (d : Fin 32) (ab : Fin 16) (pi : Bool) (i : BitVec 11) : SlotOp where
  srcs := [.a ab, .s d]
  dsts := [.a ab]
  body e a := e.fullEmpty a ab pi i (fun n => some (.empty n)) fun a ea _ =>
    .ok { a with spad := writeLE a.spad ea 4 (e.k.readS d).toNat, full := insertNat (ea / 4) a.full }

def opFeemp (ab : Fin 16) (pi : Bool) (i : BitVec 11) : SlotOp where
  srcs := [.a ab]
  dsts := [.a ab]
  body e a := e.fullEmpty a ab pi i (fun _ => none) fun a ea _ => .ok { a with full := removeNat (ea / 4) a.full }

def opWaita (d : Fin 32) (ab : Fin 16) (pi : Bool) (i : BitVec 11) : SlotOp where
  srcs := [.a ab, .s d]
  dsts := [.a ab]
  body e a := e.fullEmpty a ab pi i (fun n => some (.atLeast n ((e.k.readS d).toNat % 2 ^ 32))) fun a _ _ => .ok a

/-- AMADD to AMCAS on the scratchpad (R127): one step at issue. `op` numbers the operation as YATOM does. -/
def Env.localAtomic (e : Env) (a : Acc) (op w : Nat) (d : Fin 32) (ea : W64) (b : W64) : SlotRes :=
  match spadCheck ea w with
  | some x => .fault x a
  | none =>
    e.spadAccess a true true (rangeOf ea.toNat w) fun a =>
      let old := readLE a.spad ea.toNat w
      let new := (amoOf op).eval w old b.toNat (e.k.readS d).toNat
      e.toS { a with spad := writeLE a.spad ea.toNat w new } 4 d (BitVec.ofNat 64 (sx64 (8 * w) old)) (some 3)

/-- The atomics of a Taproot core, on global memory (14_package.md R369): one step at the home at issue, before which the core
waits for the accesses that it must follow (DEDUCED, log 12). One to region 3 is a refused access too, which the tables log (12_die.md R336;
DEDUCED, log 70). -/
def Env.globalAtomic (e : Env) (a : Acc) (op w : Nat) (d : Fin 32) (ea : W64) (b : W64) : SlotRes :=
  if !canonical ea then .fault (dataFault 0 ea) a
  else if ea.toNat % w ≠ 0 then .fault (alignFault ea) a
  else
    match a.st.translate (e.who a) .atomic ea with
    | (.error x, s) => .fault (faultOf ea x) { a with st := s }
    | (.ok x, s) =>
      let a := { a with st := s }
      if bits x.pa 45 44 = 3 then .fault { dataFault 0x05 ea with refs := [⟨e.d, .atomic, masterOf e.d e.c.val, x.pa⟩] } a
      else if bits x.pa 45 44 = 2 then .fault (dataFault 0x05 ea) a
      else a.consume (e.who a) .atomic ea w (fun s pa => s.homePoison e.d e.c pa) fun a x _ =>
        let a := if a.st.holdsAtomic e.d e.c (rangeOf x.pa w) then a.wait e 7 0 agentMem else a
        let act (s : State) : Nat × State :=
          let s := if s.cacheable x.pa then s.expose e.d e.c x.pa else s
          s.amoHome x.pa (amoOf op) w b.toNat (e.k.readS d).toNat
        e.toS { a with post := a.post ++ [fun s => (act s).2.noteWord (.core e.d e.c) (s.ownPa x.pa)] } 4 d (BitVec.ofNat 64 (sx64 (8 * w) (act a.st).1)) (some 3)

def opAm (op : Nat) (d : Fin 32) (n : Fin 16) (b : Fin 32) (w64 : Bool) : SlotOp where
  srcs := [.a n, .s b] ++ (if op = 7 then [.s d] else [])
  dsts := [.s d]
  body e a :=
    let w := if w64 then 8 else 4
    if isTaproot e.c then e.globalAtomic a op w d (e.k.readA n) (e.k.readS b)
    else e.localAtomic a op w d (e.k.readA n) (e.k.readS b)

def opLdspI8 (d : Fin 32) (ab : Fin 16) (pi : Bool) (i : BitVec 11) : SlotOp := opLdsp 1 (.sext 8) d ab pi i
def opLdgI8 (d : Fin 32) (ab : Fin 16) (pi : Bool) (i : BitVec 11) : SlotOp := opLdg 1 (.sext 8) d ab pi i
def opLdspI16 (d : Fin 32) (ab : Fin 16) (pi : Bool) (i : BitVec 11) : SlotOp := opLdsp 2 (.sext 16) d ab pi i
def opLdgI16 (d : Fin 32) (ab : Fin 16) (pi : Bool) (i : BitVec 11) : SlotOp := opLdg 2 (.sext 16) d ab pi i
def opLdspI32 (d : Fin 32) (ab : Fin 16) (pi : Bool) (i : BitVec 11) : SlotOp := opLdsp 4 (.sext 32) d ab pi i
def opLdgI32 (d : Fin 32) (ab : Fin 16) (pi : Bool) (i : BitVec 11) : SlotOp := opLdg 4 (.sext 32) d ab pi i
def opLdspI64 (d : Fin 32) (ab : Fin 16) (pi : Bool) (i : BitVec 11) : SlotOp := opLdsp 8 (.sext 64) d ab pi i
def opLdgI64 (d : Fin 32) (ab : Fin 16) (pi : Bool) (i : BitVec 11) : SlotOp := opLdg 8 (.sext 64) d ab pi i
def opLdspUi8 (d : Fin 32) (ab : Fin 16) (pi : Bool) (i : BitVec 11) : SlotOp := opLdsp 1 .zext d ab pi i
def opLdgUi8 (d : Fin 32) (ab : Fin 16) (pi : Bool) (i : BitVec 11) : SlotOp := opLdg 1 .zext d ab pi i
def opLdspUi16 (d : Fin 32) (ab : Fin 16) (pi : Bool) (i : BitVec 11) : SlotOp := opLdsp 2 .zext d ab pi i
def opLdgUi16 (d : Fin 32) (ab : Fin 16) (pi : Bool) (i : BitVec 11) : SlotOp := opLdg 2 .zext d ab pi i
def opLdspUi32 (d : Fin 32) (ab : Fin 16) (pi : Bool) (i : BitVec 11) : SlotOp := opLdsp 4 .zext d ab pi i
def opLdgUi32 (d : Fin 32) (ab : Fin 16) (pi : Bool) (i : BitVec 11) : SlotOp := opLdg 4 .zext d ab pi i
def opStspI8 (d : Fin 32) (ab : Fin 16) (pi : Bool) (i : BitVec 11) : SlotOp := opStsp 1 d ab pi i
def opStgI8 (d : Fin 32) (ab : Fin 16) (pi : Bool) (i : BitVec 11) : SlotOp := opStg 1 d ab pi i
def opStspI16 (d : Fin 32) (ab : Fin 16) (pi : Bool) (i : BitVec 11) : SlotOp := opStsp 2 d ab pi i
def opStgI16 (d : Fin 32) (ab : Fin 16) (pi : Bool) (i : BitVec 11) : SlotOp := opStg 2 d ab pi i
def opStspI32 (d : Fin 32) (ab : Fin 16) (pi : Bool) (i : BitVec 11) : SlotOp := opStsp 4 d ab pi i
def opStgI32 (d : Fin 32) (ab : Fin 16) (pi : Bool) (i : BitVec 11) : SlotOp := opStg 4 d ab pi i
def opStspI64 (d : Fin 32) (ab : Fin 16) (pi : Bool) (i : BitVec 11) : SlotOp := opStsp 8 d ab pi i
def opStgI64 (d : Fin 32) (ab : Fin 16) (pi : Bool) (i : BitVec 11) : SlotOp := opStg 8 d ab pi i

def opAmadd (d : Fin 32) (a : Fin 16) (b : Fin 32) (w : Bool) : SlotOp := opAm 0 d a b w
def opAmand (d : Fin 32) (a : Fin 16) (b : Fin 32) (w : Bool) : SlotOp := opAm 1 d a b w
def opAmor (d : Fin 32) (a : Fin 16) (b : Fin 32) (w : Bool) : SlotOp := opAm 2 d a b w
def opAmxor (d : Fin 32) (a : Fin 16) (b : Fin 32) (w : Bool) : SlotOp := opAm 3 d a b w
def opAmmin (d : Fin 32) (a : Fin 16) (b : Fin 32) (w : Bool) : SlotOp := opAm 4 d a b w
def opAmmax (d : Fin 32) (a : Fin 16) (b : Fin 32) (w : Bool) : SlotOp := opAm 5 d a b w
def opAmswp (d : Fin 32) (a : Fin 16) (b : Fin 32) (w : Bool) : SlotOp := opAm 6 d a b w
def opAmcas (d : Fin 32) (a : Fin 16) (b : Fin 32) (w : Bool) : SlotOp := opAm 7 d a b w

def opLdaqI32 (d : Fin 32) (ab : Fin 16) (sc : Scope) (i : BitVec 9) : SlotOp := opLdaq 4 d ab sc i
def opStrlI32 (d : Fin 32) (ab : Fin 16) (sc : Scope) (i : BitVec 9) : SlotOp := opStrl 4 d ab sc i
def opLdaqI64 (d : Fin 32) (ab : Fin 16) (sc : Scope) (i : BitVec 9) : SlotOp := opLdaq 8 d ab sc i
def opStrlI64 (d : Fin 32) (ab : Fin 16) (sc : Scope) (i : BitVec 9) : SlotOp := opStrl 8 d ab sc i

/-- QMARK (R130). -/
def opQmark : SlotOp where
  body e a := .ok (a.mem e .mark)

/-- L1FL and L1INV (R131): no effect at `.c`. -/
def opL1 (sc : Scope) (inv : Bool) : SlotOp where
  body e a := .ok (if sc = .c then a else a.mem e (.flush sc inv))

def opL1fl (sc : Scope) : SlotOp := opL1 sc false
def opL1inv (sc : Scope) : SlotOp := opL1 sc true

/-- The refusals that an access which faults for nobody leaves in the logs (12_die.md R339). -/
def XErr.refusals : XErr → List Refused
  | .reason _ => []
  | .refused r => [r]
  | .fabRefused l => l
  | .fabNoRoute => []
  | .fabUnlinked => []
  | .logged _ => []
  | .late => []

/-- The line forms (R132): an address that cannot be translated, is refused or is not cached does nothing, but a refusal is logged (R339;
DEDUCED, log 37). -/
def opLine (ab : Fin 16) (i : BitVec 11) (m : Nat → MemKind) : SlotOp where
  srcs := [.a ab]
  body e a :=
    let ea := e.k.readA ab + i.signExtend 64
    if !canonical ea then .ok a
    else
      match a.st.locate (e.who a) .read ea 1 with
      | (.error .late, s) => .ok ({ a with st := s }.wait e 7 (ea.toNat % 2 ^ 32) agentMem)
      | (.error x, s) => .ok { a with st := s, post := a.post ++ [fun s => x.refusals.foldl State.logRefused s] }
      | (.ok (x, _), s) => .ok (if s.cacheable x.pa then { a with st := s }.mem e (m x.pa) else { a with st := s })

def opL1fll (ab : Fin 16) (i : BitVec 11) : SlotOp := opLine ab i fun pa => .flushLine pa false
def opL1invl (ab : Fin 16) (i : BitVec 11) : SlotOp := opLine ab i fun pa => .flushLine pa true
def opLdpf (ab : Fin 16) (i : BitVec 11) : SlotOp := opLine ab i fun pa => .prefetch pa

/-! Instructions: each issues alone in its bundle. -/

def execAnop (s : State) : Host.Outcome State Fault Refusal := issueOne ⟨.always, .a .anop⟩ opAnop s
def execAadd (g : Guard) (d a : Fin 16) (b : Fin 32) (s : State) : Host.Outcome State Fault Refusal := issueOne ⟨g, .a (.aadd d a b)⟩ (opAadd d a b) s
def execAsub (g : Guard) (d a : Fin 16) (b : Fin 32) (s : State) : Host.Outcome State Fault Refusal := issueOne ⟨g, .a (.asub d a b)⟩ (opAsub d a b) s
def execAadda (g : Guard) (d a b : Fin 16) (s : State) : Host.Outcome State Fault Refusal := issueOne ⟨g, .a (.aadda d a b)⟩ (opAadda d a b) s
def execAmov (g : Guard) (d a : Fin 16) (s : State) : Host.Outcome State Fault Refusal := issueOne ⟨g, .a (.amov d a)⟩ (opAmov d a) s
def execAsets (g : Guard) (d : Fin 16) (a : Fin 32) (s : State) : Host.Outcome State Fault Refusal := issueOne ⟨g, .a (.asets d a)⟩ (opAsets d a) s
def execAgets (g : Guard) (d : Fin 32) (a : Fin 16) (s : State) : Host.Outcome State Fault Refusal := issueOne ⟨g, .a (.agets d a)⟩ (opAgets d a) s
def execAaddi (g : Guard) (d a : Fin 16) (i : BitVec 11) (s : State) : Host.Outcome State Fault Refusal := issueOne ⟨g, .a (.aaddi d a i)⟩ (opAaddi d a i) s
def execAli (g : Guard) (d : Fin 16) (imm : BitVec 32) (s : State) : Host.Outcome State Fault Refusal := issueOne ⟨g, .a (.ali d imm)⟩ (opAli d imm) s
def execAlih (g : Guard) (d : Fin 16) (imm : BitVec 32) (s : State) : Host.Outcome State Fault Refusal := issueOne ⟨g, .a (.alih d imm)⟩ (opAlih d imm) s
def execAaddx (g : Guard) (d a : Fin 16) (imm : BitVec 32) (s : State) : Host.Outcome State Fault Refusal := issueOne ⟨g, .a (.aaddx d a imm)⟩ (opAaddx d a imm) s
def execLdspI8 (g : Guard) (d : Fin 32) (ab : Fin 16) (pi : Bool) (i : BitVec 11) (s : State) : Host.Outcome State Fault Refusal := issueOne ⟨g, .a (.ldspI8 d ab pi i)⟩ (opLdspI8 d ab pi i) s
def execLdspI16 (g : Guard) (d : Fin 32) (ab : Fin 16) (pi : Bool) (i : BitVec 11) (s : State) : Host.Outcome State Fault Refusal := issueOne ⟨g, .a (.ldspI16 d ab pi i)⟩ (opLdspI16 d ab pi i) s
def execLdspI32 (g : Guard) (d : Fin 32) (ab : Fin 16) (pi : Bool) (i : BitVec 11) (s : State) : Host.Outcome State Fault Refusal := issueOne ⟨g, .a (.ldspI32 d ab pi i)⟩ (opLdspI32 d ab pi i) s
def execLdspI64 (g : Guard) (d : Fin 32) (ab : Fin 16) (pi : Bool) (i : BitVec 11) (s : State) : Host.Outcome State Fault Refusal := issueOne ⟨g, .a (.ldspI64 d ab pi i)⟩ (opLdspI64 d ab pi i) s
def execLdspUi8 (g : Guard) (d : Fin 32) (ab : Fin 16) (pi : Bool) (i : BitVec 11) (s : State) : Host.Outcome State Fault Refusal := issueOne ⟨g, .a (.ldspUi8 d ab pi i)⟩ (opLdspUi8 d ab pi i) s
def execLdspUi16 (g : Guard) (d : Fin 32) (ab : Fin 16) (pi : Bool) (i : BitVec 11) (s : State) : Host.Outcome State Fault Refusal := issueOne ⟨g, .a (.ldspUi16 d ab pi i)⟩ (opLdspUi16 d ab pi i) s
def execLdspUi32 (g : Guard) (d : Fin 32) (ab : Fin 16) (pi : Bool) (i : BitVec 11) (s : State) : Host.Outcome State Fault Refusal := issueOne ⟨g, .a (.ldspUi32 d ab pi i)⟩ (opLdspUi32 d ab pi i) s
def execStspI8 (g : Guard) (d : Fin 32) (ab : Fin 16) (pi : Bool) (i : BitVec 11) (s : State) : Host.Outcome State Fault Refusal := issueOne ⟨g, .a (.stspI8 d ab pi i)⟩ (opStspI8 d ab pi i) s
def execStspI16 (g : Guard) (d : Fin 32) (ab : Fin 16) (pi : Bool) (i : BitVec 11) (s : State) : Host.Outcome State Fault Refusal := issueOne ⟨g, .a (.stspI16 d ab pi i)⟩ (opStspI16 d ab pi i) s
def execStspI32 (g : Guard) (d : Fin 32) (ab : Fin 16) (pi : Bool) (i : BitVec 11) (s : State) : Host.Outcome State Fault Refusal := issueOne ⟨g, .a (.stspI32 d ab pi i)⟩ (opStspI32 d ab pi i) s
def execStspI64 (g : Guard) (d : Fin 32) (ab : Fin 16) (pi : Bool) (i : BitVec 11) (s : State) : Host.Outcome State Fault Refusal := issueOne ⟨g, .a (.stspI64 d ab pi i)⟩ (opStspI64 d ab pi i) s
def execLdgI8 (g : Guard) (d : Fin 32) (ab : Fin 16) (pi : Bool) (i : BitVec 11) (s : State) : Host.Outcome State Fault Refusal := issueOne ⟨g, .a (.ldgI8 d ab pi i)⟩ (opLdgI8 d ab pi i) s
def execLdgI16 (g : Guard) (d : Fin 32) (ab : Fin 16) (pi : Bool) (i : BitVec 11) (s : State) : Host.Outcome State Fault Refusal := issueOne ⟨g, .a (.ldgI16 d ab pi i)⟩ (opLdgI16 d ab pi i) s
def execLdgI32 (g : Guard) (d : Fin 32) (ab : Fin 16) (pi : Bool) (i : BitVec 11) (s : State) : Host.Outcome State Fault Refusal := issueOne ⟨g, .a (.ldgI32 d ab pi i)⟩ (opLdgI32 d ab pi i) s
def execLdgI64 (g : Guard) (d : Fin 32) (ab : Fin 16) (pi : Bool) (i : BitVec 11) (s : State) : Host.Outcome State Fault Refusal := issueOne ⟨g, .a (.ldgI64 d ab pi i)⟩ (opLdgI64 d ab pi i) s
def execLdgUi8 (g : Guard) (d : Fin 32) (ab : Fin 16) (pi : Bool) (i : BitVec 11) (s : State) : Host.Outcome State Fault Refusal := issueOne ⟨g, .a (.ldgUi8 d ab pi i)⟩ (opLdgUi8 d ab pi i) s
def execLdgUi16 (g : Guard) (d : Fin 32) (ab : Fin 16) (pi : Bool) (i : BitVec 11) (s : State) : Host.Outcome State Fault Refusal := issueOne ⟨g, .a (.ldgUi16 d ab pi i)⟩ (opLdgUi16 d ab pi i) s
def execLdgUi32 (g : Guard) (d : Fin 32) (ab : Fin 16) (pi : Bool) (i : BitVec 11) (s : State) : Host.Outcome State Fault Refusal := issueOne ⟨g, .a (.ldgUi32 d ab pi i)⟩ (opLdgUi32 d ab pi i) s
def execStgI8 (g : Guard) (d : Fin 32) (ab : Fin 16) (pi : Bool) (i : BitVec 11) (s : State) : Host.Outcome State Fault Refusal := issueOne ⟨g, .a (.stgI8 d ab pi i)⟩ (opStgI8 d ab pi i) s
def execStgI16 (g : Guard) (d : Fin 32) (ab : Fin 16) (pi : Bool) (i : BitVec 11) (s : State) : Host.Outcome State Fault Refusal := issueOne ⟨g, .a (.stgI16 d ab pi i)⟩ (opStgI16 d ab pi i) s
def execStgI32 (g : Guard) (d : Fin 32) (ab : Fin 16) (pi : Bool) (i : BitVec 11) (s : State) : Host.Outcome State Fault Refusal := issueOne ⟨g, .a (.stgI32 d ab pi i)⟩ (opStgI32 d ab pi i) s
def execStgI64 (g : Guard) (d : Fin 32) (ab : Fin 16) (pi : Bool) (i : BitVec 11) (s : State) : Host.Outcome State Fault Refusal := issueOne ⟨g, .a (.stgI64 d ab pi i)⟩ (opStgI64 d ab pi i) s
def execLdf (g : Guard) (d : Fin 32) (ab : Fin 16) (pi : Bool) (i : BitVec 11) (s : State) : Host.Outcome State Fault Refusal := issueOne ⟨g, .a (.ldf d ab pi i)⟩ (opLdf d ab pi i) s
def execLdfe (g : Guard) (d : Fin 32) (ab : Fin 16) (pi : Bool) (i : BitVec 11) (s : State) : Host.Outcome State Fault Refusal := issueOne ⟨g, .a (.ldfe d ab pi i)⟩ (opLdfe d ab pi i) s
def execSte (g : Guard) (d : Fin 32) (ab : Fin 16) (pi : Bool) (i : BitVec 11) (s : State) : Host.Outcome State Fault Refusal := issueOne ⟨g, .a (.ste d ab pi i)⟩ (opSte d ab pi i) s
def execFeemp (g : Guard) (ab : Fin 16) (pi : Bool) (i : BitVec 11) (s : State) : Host.Outcome State Fault Refusal := issueOne ⟨g, .a (.feemp ab pi i)⟩ (opFeemp ab pi i) s
def execWaita (g : Guard) (d : Fin 32) (ab : Fin 16) (pi : Bool) (i : BitVec 11) (s : State) : Host.Outcome State Fault Refusal := issueOne ⟨g, .a (.waita d ab pi i)⟩ (opWaita d ab pi i) s
def execAmadd (g : Guard) (d : Fin 32) (a : Fin 16) (b : Fin 32) (w : Bool) (s : State) : Host.Outcome State Fault Refusal := issueOne ⟨g, .a (.amadd d a b w)⟩ (opAmadd d a b w) s
def execAmand (g : Guard) (d : Fin 32) (a : Fin 16) (b : Fin 32) (w : Bool) (s : State) : Host.Outcome State Fault Refusal := issueOne ⟨g, .a (.amand d a b w)⟩ (opAmand d a b w) s
def execAmor (g : Guard) (d : Fin 32) (a : Fin 16) (b : Fin 32) (w : Bool) (s : State) : Host.Outcome State Fault Refusal := issueOne ⟨g, .a (.amor d a b w)⟩ (opAmor d a b w) s
def execAmxor (g : Guard) (d : Fin 32) (a : Fin 16) (b : Fin 32) (w : Bool) (s : State) : Host.Outcome State Fault Refusal := issueOne ⟨g, .a (.amxor d a b w)⟩ (opAmxor d a b w) s
def execAmmin (g : Guard) (d : Fin 32) (a : Fin 16) (b : Fin 32) (w : Bool) (s : State) : Host.Outcome State Fault Refusal := issueOne ⟨g, .a (.ammin d a b w)⟩ (opAmmin d a b w) s
def execAmmax (g : Guard) (d : Fin 32) (a : Fin 16) (b : Fin 32) (w : Bool) (s : State) : Host.Outcome State Fault Refusal := issueOne ⟨g, .a (.ammax d a b w)⟩ (opAmmax d a b w) s
def execAmswp (g : Guard) (d : Fin 32) (a : Fin 16) (b : Fin 32) (w : Bool) (s : State) : Host.Outcome State Fault Refusal := issueOne ⟨g, .a (.amswp d a b w)⟩ (opAmswp d a b w) s
def execAmcas (g : Guard) (d : Fin 32) (a : Fin 16) (b : Fin 32) (w : Bool) (s : State) : Host.Outcome State Fault Refusal := issueOne ⟨g, .a (.amcas d a b w)⟩ (opAmcas d a b w) s
def execLdaqI32 (g : Guard) (d : Fin 32) (ab : Fin 16) (sc : Scope) (i : BitVec 9) (s : State) : Host.Outcome State Fault Refusal := issueOne ⟨g, .a (.ldaqI32 d ab sc i)⟩ (opLdaqI32 d ab sc i) s
def execLdaqI64 (g : Guard) (d : Fin 32) (ab : Fin 16) (sc : Scope) (i : BitVec 9) (s : State) : Host.Outcome State Fault Refusal := issueOne ⟨g, .a (.ldaqI64 d ab sc i)⟩ (opLdaqI64 d ab sc i) s
def execStrlI32 (g : Guard) (d : Fin 32) (ab : Fin 16) (sc : Scope) (i : BitVec 9) (s : State) : Host.Outcome State Fault Refusal := issueOne ⟨g, .a (.strlI32 d ab sc i)⟩ (opStrlI32 d ab sc i) s
def execStrlI64 (g : Guard) (d : Fin 32) (ab : Fin 16) (sc : Scope) (i : BitVec 9) (s : State) : Host.Outcome State Fault Refusal := issueOne ⟨g, .a (.strlI64 d ab sc i)⟩ (opStrlI64 d ab sc i) s
def execQmark (g : Guard) (s : State) : Host.Outcome State Fault Refusal := issueOne ⟨g, .a .qmark⟩ opQmark s
def execL1fl (g : Guard) (sc : Scope) (s : State) : Host.Outcome State Fault Refusal := issueOne ⟨g, .a (.l1fl sc)⟩ (opL1fl sc) s
def execL1inv (g : Guard) (sc : Scope) (s : State) : Host.Outcome State Fault Refusal := issueOne ⟨g, .a (.l1inv sc)⟩ (opL1inv sc) s
def execL1fll (g : Guard) (ab : Fin 16) (i : BitVec 11) (s : State) : Host.Outcome State Fault Refusal := issueOne ⟨g, .a (.l1fll ab i)⟩ (opL1fll ab i) s
def execL1invl (g : Guard) (ab : Fin 16) (i : BitVec 11) (s : State) : Host.Outcome State Fault Refusal := issueOne ⟨g, .a (.l1invl ab i)⟩ (opL1invl ab i) s
def execLdpf (g : Guard) (ab : Fin 16) (i : BitVec 11) (s : State) : Host.Outcome State Fault Refusal := issueOne ⟨g, .a (.ldpf ab i)⟩ (opLdpf ab i) s

end Sys2Proof.Machine
end

