-- ==== Sys2Proof/Machine/Vector.lean ====
section
/-! DEFINITION. Vector-slot instructions on registers, predicates and tiles (03_numbers.md R63 to R89; 05_vector.md R133 to R152, R158 to
R163). -/

namespace Sys2Proof.Machine

open Sys2Proof

/-- The engine of a vector slot: 0 for slot 3, 1 for slot 4. -/
def Env.veng (e : Env) : Fin 2 := if e.slot = 4 then 1 else 0

/-- The bypass latch of the slot's engine (R136). -/
def Env.vlatch (e : Env) : Option (Fin 8) := some (if e.slot = 4 then 1 else 0)

/-- A type under the f registers as they stand (03_numbers.md R69). -/
def Core.ty (k : Core) (t : Ty) : Option ETy := Ty.resolve (fun i => k.regs.f[i]) t

/-- Element width of a type in bits; an invalid descriptor never gets as far. -/
def Core.tyBits (k : Core) (t : Ty) : Nat := match k.ty t with | some x => x.bits | none => 8

/-- A type that raises SLOT_ILLEGAL in the core's state: an invalid descriptor, or nibbles where none are allowed (R69, R135). -/
def Core.tyBad (k : Core) (t : Ty) (nibbles : Bool) : Bool :=
  match k.ty t with
  | none => true
  | some x => x.isNibble && !nibbles

/-- The register a vector source waits for: none for a latch (01_bundles.md R16). -/
def vsrc (x : Fin 40) : List Dst := if h : x.val < 32 then [.v ⟨x.val, h⟩] else []

/-- A vector source in its own element width, with elements at or above VL read as zero (R133). -/
def Env.src (e : Env) (x : Fin 40) (w : Nat) : Nat := maskSource e.vl w (e.k.readV x w)

/-- Byte lanes of the elements of width `w` that `on` selects. -/
def laneMask (w : Nat) (on : Nat → Bool) : Nat := packBits ((List.range 256).map fun l => on (8 * l / w))

/-- The elements of a destination that take part (R28, R134). -/
def Env.on (e : Env) (w i : Nat) : Bool := elemOn e.vl e.guard w i

/-- A fixed-latency write of a v register in the lanes `en`. -/
def Env.pushV (e : Env) (a : Acc) (lat : Nat) (vd : Fin 32) (r : VRes) (en : Nat) : Acc :=
  a.push { e.pend lat (.v vd) r.v e.vlatch with en := en, evs := r.evs }

/-- The rounding of element `j` (03_numbers.md R78). -/
def Env.rnd (e : Env) (rm : Rm) (j : Nat) : Rnd :=
  match rm with
  | .rne => .rne
  | .rtz => .rtz
  | .rs => .rs (rbits (e.k.regs.rng.getD e.veng.val 0) j)

/-- The random state of the slot's engine after an instruction that rounds under RS (R78). -/
def Env.advance (e : Env) (a : Acc) (rm : Rm) : Acc :=
  if rm = .rs then { a with rng := a.rng.setIfInBounds e.veng.val (advanceRng (e.k.regs.rng.getD e.veng.val 0)) } else a

/-- Latency of an element operation: "fp" for floating point, "int" otherwise (R136). -/
def ETy.latency (t : ETy) : Nat := if t.isFlt then 4 else 2

/-- An element-wise result: element i of the destination, of type `t`, is `f` of its rounding and its index. -/
def Env.elementwise (e : Env) (a : Acc) (lat : Nat) (vd : Fin 32) (w : Nat) (rm : Rm) (f : Rnd → Nat → Nat × Option Ev) : SlotRes :=
  let r := writeElems w (e.k.regs.v[vd]).toNat (e.on w) fun i => f (e.rnd rm i) i
  .ok (e.advance (e.pushV a lat vd r (laneMask w (e.on w))) rm)

/-- Runs a body with a resolved type. -/
def Env.withTy (e : Env) (a : Acc) (t : Ty) (f : ETy → SlotRes) : SlotRes :=
  match e.k.ty t with
  | some x => f x
  | none => .fault { cause := .slotIllegal } a

def opVnop : SlotOp := opNothing

/-- Two-source arithmetic (R138, R139). -/
def opVAlu (o : VAlu) (vd : Fin 32) (va vb : Fin 40) (t : Ty) (rm : Rm) : SlotOp where
  srcs := vsrc va ++ vsrc vb
  dsts := [.v vd]
  illegal e := e.k.tyBad t true
  unit k := k.tyBits t
  body e acc := e.withTy acc t fun x =>
    let a := e.src va x.bits
    let b := e.src vb x.bits
    e.elementwise acc x.latency vd x.bits rm fun m i => o.elem x m (elemAt a x.bits i) (elemAt b x.bits i)

/-- One-source arithmetic (R138). -/
def opVAlu1 (o : VAlu) (vd : Fin 32) (va : Fin 40) (t : Ty) : SlotOp where
  srcs := vsrc va
  dsts := [.v vd]
  illegal e := e.k.tyBad t true
  unit k := k.tyBits t
  body e acc := e.withTy acc t fun x =>
    let a := e.src va x.bits
    e.elementwise acc x.latency vd x.bits .rne fun m i => o.elem x m (elemAt a x.bits i) 0

/-- Immediate arithmetic (R140): the low W bits of IMM32 for nibble types, the low 8w otherwise. -/
def opVImm (o : VAlu) (vd : Fin 32) (va : Fin 40) (t : Ty) (imm : BitVec 32) : SlotOp where
  srcs := vsrc va
  dsts := [.v vd]
  illegal e := e.k.tyBad t true
  unit k := k.tyBits t
  body e acc := e.withTy acc t fun x =>
    let a := e.src va x.bits
    let c := imm.toNat % 2 ^ (if x.isNibble then x.codeBits else x.bits)
    e.elementwise acc x.latency vd x.bits .rne fun m i => o.elem x m (elemAt a x.bits i) c

/-- Fused multiply-add (R139, R88). -/
def opVFma (negProd negC : Bool) (vd : Fin 32) (va vb : Fin 40) (t : Ty) (vc : Fin 40) (rm : Rm) : SlotOp where
  srcs := vsrc va ++ vsrc vb ++ vsrc vc
  dsts := [.v vd]
  illegal e := e.k.tyBad t true
  unit k := k.tyBits t
  body e acc := e.withTy acc t fun x =>
    match x with
    | .int _ _ => .fault { cause := .slotIllegal } acc
    | .flt f _ =>
      let a := e.src va x.bits
      let b := e.src vb x.bits
      let c := e.src vc x.bits
      e.elementwise acc 4 vd x.bits rm fun m i =>
        fmaElem f m negProd negC (elemAt a x.bits i) (elemAt b x.bits i) (elemAt c x.bits i)

/-- VSEL (R139, R144). -/
def opVsel (vd : Fin 32) (va vb : Fin 40) (t : Ty) (ps : Fin 8) : SlotOp where
  srcs := vsrc va ++ vsrc vb
  dsts := [.v vd]
  illegal e := e.k.tyBad t true
  unit k := k.tyBits t
  body e acc := e.withTy acc t fun x =>
    let a := e.src va x.bits
    let b := e.src vb x.bits
    let p := e.k.readP ps
    e.elementwise acc 2 vd x.bits .rne fun _ i =>
      (x.code (if p.testBit (x.bits * i / 8) then elemAt a x.bits i else elemAt b x.bits i), none)

/-- VMOV (R138). -/
def opVmov (vd : Fin 32) (va : Fin 40) (t : Ty) : SlotOp where
  srcs := vsrc va
  dsts := [.v vd]
  illegal e := e.k.tyBad t true
  unit k := k.tyBits t
  body e acc := e.withTy acc t fun x =>
    let a := e.src va x.bits
    e.elementwise acc 2 vd x.bits .rne fun _ i => (x.code (elemAt a x.bits i), none)

/-- VBCST (R140, R144), its unused high bits zero (03_numbers.md R71). -/
def opVbcst (vd : Fin 32) (t : Ty) (imm : BitVec 32) : SlotOp where
  dsts := [.v vd]
  illegal e := e.k.tyBad t true
  unit k := k.tyBits t
  body e acc := e.withTy acc t fun x =>
    e.elementwise acc 2 vd x.bits .rne fun _ _ => (x.code imm.toNat, none)

/-- Element moves (R144): a code moves bit for bit, and the bits of its element beside it are written as zero (R137; 03_numbers.md R71). -/
def opVMove (o : VMove) (vd : Fin 32) (va : Fin 40) (vb : Option (Fin 40)) (t : Ty) : SlotOp where
  srcs := vsrc va ++ (match vb with | some b => vsrc b | none => [])
  dsts := [.v vd]
  illegal e := e.k.tyBad t false
  unit k := k.tyBits t
  body e acc := e.withTy acc t fun x =>
    let a := e.src va x.bits
    let b := match vb with | some b => e.src b x.bits | none => 0
    e.elementwise acc 2 vd x.bits .rne fun _ i => (x.code (o.elem x.bits e.vl a b i), none)

/-- A write of element 0 alone, `w` bits wide (R147). -/
def Env.elementZero (e : Env) (a : Acc) (lat : Nat) (vd : Fin 32) (w : Nat) (v : Nat × Option Ev) : SlotRes :=
  let old := (e.k.regs.v[vd]).toNat
  let r : VRes := ⟨old / 2 ^ w * 2 ^ w + v.1 % 2 ^ w, summarize (match v.2 with | some x => [(0, x)] | none => [])⟩
  .ok (e.pushV a lat vd r (2 ^ ((w + 7) / 8) - 1 + if w = 4 then nibbleOnly else 0))

/-- Reductions, guarded on their sources (R147). -/
def opVRed (o : VRed) (vd : Fin 32) (va : Fin 40) (t : Ty) : SlotOp where
  srcs := vsrc va
  dsts := [.v vd]
  illegal e := e.k.tyBad t true
  unit k := k.tyBits t
  body e acc := e.withTy acc t fun x =>
    let r := o.eval x e.vl e.guard (e.src va x.bits)
    e.elementZero acc x.latency vd r.1 r.2

/-- Compares (R141): a predicate write at latency 2. -/
def Env.toP (e : Env) (a : Acc) (pd : Fin 8) (w : Nat) (f : Nat → Bool) : SlotRes :=
  let on := fun l => e.on w (8 * l / w) && decide (l < e.vl)
  .ok (a.push { e.pend 2 (.p pd) (packBits ((List.range 256).map fun l => on l && f (8 * l / w))) none with
    en := packBits ((List.range 256).map on) })

def opVCmp (r : Rel) (pd : Fin 8) (va vb : Fin 40) (t : Ty) : SlotOp where
  srcs := vsrc va ++ vsrc vb
  illegal e := e.k.tyBad t false
  unit k := k.tyBits t
  body e acc := e.withTy acc t fun x =>
    let a := e.src va x.bits
    let b := e.src vb x.bits
    e.toP acc pd x.bits fun i => r.elem x (elemAt a x.bits i) (elemAt b x.bits i)

/-- VCLASS (R142). A broadcast latch gives the mask as a UINT16 whatever T is (DEDUCED, log 61). -/
def opVclass (pd : Fin 8) (va vb : Fin 40) (t : Ty) : SlotOp where
  srcs := vsrc va ++ vsrc vb
  illegal e := e.k.tyBad t false
  unit k := k.tyBits t
  body e acc := e.withTy acc t fun x =>
    match x with
    | .int _ _ => .fault { cause := .slotIllegal } acc
    | .flt f _ =>
      let a := e.src va x.bits
      let mask := e.src vb 16 % 2 ^ 16
      e.toP acc pd x.bits fun i => mask.testBit (f.classOf (elemAt a x.bits i % 2 ^ f.width))

/-- Predicate logic per byte lane (R143). -/
def opVPred (f : Bool → Bool → Bool) (pd pa pb : Fin 8) : SlotOp where
  unit _ := 8
  body e acc := e.toP acc pd 8 fun i => f ((e.k.readP pa).testBit i) ((e.k.readP pb).testBit i)

/-- Special functions, latency 6 (R149). The infinities at a zero argument post no event; a NaN result posts NAN. -/
def opVSpecial (f : SpecialFn) (vd : Fin 32) (va : Fin 40) (t : Ty) : SlotOp where
  srcs := vsrc va
  dsts := [.v vd]
  illegal e := e.k.tyBad t true
  unit k := k.tyBits t
  body e acc := e.withTy acc t fun x =>
    let a := e.src va x.bits
    e.elementwise acc 6 vd x.bits .rne fun m i => Fmt.bf16.round m (f.eval (Fmt.bf16.decode (elemAt a x.bits i)))

/-- VSCALE (R148). -/
def opVscale (vd : Fin 32) (va vb : Fin 40) (t : Ty) : SlotOp where
  srcs := vsrc va ++ vsrc vb
  dsts := [.v vd]
  illegal e := e.k.tyBad t true
  unit k := k.tyBits t
  body e acc := e.withTy acc t fun x =>
    match x with
    | .int _ _ => .fault { cause := .slotIllegal } acc
    | .flt f _ =>
      let a := e.src va x.bits
      let b := e.src vb x.bits
      e.elementwise acc 4 vd x.bits .rne fun _ i => vscaleElem f x.bits (elemAt a x.bits i) (elemAt b x.bits i)

/-- VROUND and VFLOOR (R148). -/
def opVIntegral (floor : Bool) (vd : Fin 32) (va : Fin 40) (t : Ty) : SlotOp where
  srcs := vsrc va
  dsts := [.v vd]
  illegal e := e.k.tyBad t true
  unit k := k.tyBits t
  body e acc := e.withTy acc t fun x =>
    match x with
    | .int _ _ => .fault { cause := .slotIllegal } acc
    | .flt f _ =>
      let a := e.src va x.bits
      e.elementwise acc 4 vd x.bits .rne fun _ i => integralElem floor f (elemAt a x.bits i)

/-- VWIDEN and VUNPACK (R145): the lower or the upper half of the source's elements, of half the destination's width. -/
def opVWide (upper : Bool) (vd : Fin 32) (va : Fin 40) (t : Ty) : SlotOp where
  srcs := vsrc va
  dsts := [.v vd]
  illegal e := e.k.tyBad t false
  unit k := 2 * k.tyBits t
  body e acc := e.withTy acc t fun x =>
    let a := e.src va x.bits
    let n := 2048 / (2 * x.bits)
    e.elementwise acc x.latency vd (2 * x.bits) .rne fun _ i => widenElem x (elemAt a x.bits (if upper then n + i else i))

/-- VNARROW and VPACK (R145): the sources' elements are twice as wide. -/
def opVHalf (vd : Fin 32) (va vb : Fin 40) (t : Ty) (f : ETy → Nat → Nat × Option Ev) : SlotOp where
  srcs := vsrc va ++ vsrc vb
  dsts := [.v vd]
  illegal e := e.k.tyBad t false
  unit k := k.tyBits t
  body e acc := e.withTy acc t fun x =>
    let w := 2 * x.bits
    let a := e.src va w
    let b := e.src vb w
    let n := 2048 / x.bits
    e.elementwise acc x.latency vd x.bits .rne fun _ i => f x (if i < n / 2 then elemAt a w i else elemAt b w (i - n / 2))

def opVnarrow (vd : Fin 32) (va vb : Fin 40) (t : Ty) : SlotOp := opVHalf vd va vb t narrowElem
def opVpack (vd : Fin 32) (va vb : Fin 40) (t : Ty) : SlotOp := opVHalf vd va vb t fun x v => (v % 2 ^ x.bits, none)

/-- VSUMW (R146): vB is read in the destination's width. -/
def opVsumw (vd : Fin 32) (va vb : Fin 40) (t : Ty) : SlotOp where
  srcs := vsrc va ++ vsrc vb
  dsts := [.v vd]
  illegal e := e.k.tyBad t false
  unit k := 2 * k.tyBits t
  body e acc := e.withTy acc t fun x =>
    match x with
    | .flt _ _ => .fault { cause := .slotIllegal } acc
    | .int s n =>
      let w := 8 * n
      let a := e.src va w
      let b := e.src vb (2 * w)
      e.elementwise acc 2 vd (2 * w) .rne fun _ i =>
        (wrapInt (2 * w) (asInt s w (elemAt a w (2 * i)) + asInt s w (elemAt a w (2 * i + 1)) + asInt s (2 * w) (elemAt b (2 * w) i)), none)

/-- VDOT2 (R146). -/
def opVdot2 (vd : Fin 32) (va vb : Fin 40) (t : Ty) : SlotOp where
  srcs := vsrc va ++ vsrc vb
  dsts := [.v vd]
  illegal e := e.k.tyBad t false
  unit k := 2 * k.tyBits t
  body e acc := e.withTy acc t fun x =>
    let w := x.bits
    let a := e.src va w
    let b := e.src vb w
    e.elementwise acc x.latency vd (2 * w) .rne fun _ i =>
      dot2Elem x (elemAt a w (2 * i)) (elemAt b w (2 * i)) (elemAt a w (2 * i + 1)) (elemAt b w (2 * i + 1))

/-- What VMAXEXP writes to the latch (03_numbers.md R83). -/
def maxexpCode (f : Fmt) (vals : List Nat) : Nat × Option Ev :=
  let l := vals.map fun v => (f.decode v).abs
  if l.any Num.isNan then (0xFF, some .nan)
  else
    match l.foldl Num.max (.fin false 0 1) with
    | .fin _ n d => e5m3AtLeast n (d * 127)
    | .inf _ => (0xFE, some .scaleSat)
    | .nan => (0xFF, some .nan)

/-- VMAXEXP (R150; 03_numbers.md R82): the latch write lands 3 cycles after issue. Its record counts one element, number 0 (DESIGN CHOICE, log 62). -/
def opVmaxexp (va : Fin 40) (t : Ty) : SlotOp where
  srcs := vsrc va
  illegal e := e.k.tyBad t true
  unit k := k.tyBits t
  body e acc := e.withTy acc t fun x =>
    match x with
    | .int _ _ => .fault { cause := .slotIllegal } acc
    | .flt f _ =>
      let a := e.src va x.bits
      let on := (List.range (elemsBelow e.vl x.bits)).filter (e.on x.bits)
      let r := maxexpCode f (on.map (elemAt a x.bits))
      .ok (acc.push { e.pend 3 (.sl (e.slot == 4)) r.1 none with evs := summarize (match r.2 with | some v => [(0, v)] | none => []) })

/-- Fields of a seed control vector (R159): seed, K0, stride. -/
def seedFields (c : Nat) : Nat × Nat × Nat := (elemAt c 32 0 % 2 ^ 24, elemAt c 32 1, elemAt c 8 8 % 8 + 1)

/-- VSEEDX (R159). -/
def opVseedx (vd : Fin 32) (va : Fin 40) (t : Ty) : SlotOp where
  srcs := vsrc va
  dsts := [.v vd]
  illegal e := e.k.tyBad t true
  unit k := k.tyBits t
  body e acc := e.withTy acc t fun x =>
    let c := seedFields (e.k.readV va x.bits)
    let vals := seedValues (elemsBelow e.vl x.bits) c.2.1 c.2.2 c.1
    e.elementwise acc 2 vd x.bits .rne fun _ i => (signCode x (vals.getD i 0), none)

/-- VSEEDC (R160): eight sums over the enabled source elements. -/
def opVseedc (vd : Fin 32) (va vb : Fin 40) (t : Ty) : SlotOp where
  srcs := vsrc va ++ vsrc vb
  dsts := [.v vd]
  illegal e := e.k.tyBad t true
  unit k := k.tyBits t
  body e acc := e.withTy acc t fun x =>
    let a := e.src va x.bits
    let c := seedFields (e.k.readV vb x.bits)
    let n := elemsBelow e.vl x.bits
    let sum (j : Nat) : Int :=
      let vals := seedValues n c.2.1 c.2.2 ((c.1 + j) % 2 ^ 24)
      ((List.range n).map fun i => if e.on x.bits i then vals.getD i 0 * asInt true x.bits (elemAt a x.bits i) else 0).foldl (· + ·) 0
    let on := fun i => decide (i < 8) && decide (4 * i < e.vl)
    let r := writeElems 32 (e.k.regs.v[vd]).toNat on fun i => (wrapInt 32 (sum i), none)
    .ok (e.pushV acc 6 vd r (laneMask 32 on))

/-- Type code of VCVT's source and destination resolved; PART must be below the ratio of the widths (R151). -/
def cvtPartBad (k : Core) (ts td : Ty) (part : Nat) : Bool :=
  let a := k.tyBits ts
  let b := k.tyBits td
  decide (part ≥ Nat.max a b / Nat.min a b)

/-- VCVT (R151, R152). Under RS the random state advances also where no enabled element lies in PART (DEDUCED, log 63). -/
def opVcvt (vd : Fin 32) (va : Fin 40) (ts td : Ty) (sc : BitVec 6) (rm : Rm) (part : Fin 8) : SlotOp where
  srcs := vsrc va
  dsts := [.v vd]
  illegal e := e.k.tyBad ts true || e.k.tyBad td true || cvtPartBad e.k ts td part.val
  unit k := k.tyBits td
  body e acc := e.withTy acc ts fun s => e.withTy acc td fun t =>
    let a := e.src va s.bits
    let scale : Num := if sc = 0 then Fmt.e5m3.decode (e.k.regs.sl.getD e.veng.val 0).toNat else .fin false 1 1
    let narrow := decide (t.bits < s.bits)
    let m := 2048 / Nat.max s.bits t.bits
    let first := if narrow then part.val * m else 0
    let from0 := if t.bits > s.bits then part.val * m else 0
    let named := fun i => e.on t.bits i && decide (first ≤ i) && decide (i < first + m)
    let r := writeElems t.bits (e.k.regs.v[vd]).toNat named fun i => cvtElem s t scale (e.rnd rm i) (elemAt a s.bits (i - first + from0))
    .ok (e.advance (e.pushV acc 3 vd r (laneMask t.bits named)) rm)

/-- An unscaled conversion (R163). -/
def cvtPlain (ts td : ETy) (m : Rnd) (x : Nat) : Nat × Option Ev := td.round m (ts.value x)

/-- VTWR (R161): a tile row, guarded on the source elements. -/
def opVtwr (vd : Fin 32) (x : Fin 4) (row : Fin 16) (td ts : Ty) (rm : Rm) : SlotOp where
  srcs := [.v vd]
  illegal e := e.k.tyBad ts false || e.k.tyBad td false
  unit k := k.tyBits ts
  body e acc := e.withTy acc ts fun s => e.withTy acc td fun t =>
    let a := maskSource e.vl s.bits (e.k.regs.v[vd]).toNat
    let named := fun i => e.on s.bits i && decide (i < 2048 / s.bits)
    let r := writeElems t.bits 0 named fun i => cvtPlain s t (e.rnd rm i) (elemAt a s.bits i)
    .ok (e.advance (acc.push { e.pend 2 (.tile x row) r.v none with en := laneMask t.bits named, evs := r.evs }) rm)

/-- The mark of a tile read, which also updates bp.x (R136, R162). -/
def tileReadMark : VtbldArgs := ⟨0, 0, 0, 0, 0, 0, 0⟩

/-- VTRD (R162). The elements of a tile row are read whatever VL is (DEDUCED, log 85). -/
def opVtrd (vd : Fin 32) (x : Fin 4) (col : Fin 16) (td ts : Ty) (rm : Rm) : SlotOp where
  dsts := [.v vd]
  illegal e := e.k.tyBad ts false || e.k.tyBad td false
  unit k := k.tyBits td
  body e acc := e.withTy acc ts fun s => e.withTy acc td fun t =>
    let per := 128 / s.bits
    let named := fun j => e.on t.bits j && decide (j < 16 * per)
    let cell := fun j => elemAt ((e.k.regs.x[x]).getD (j % 16) 0).toNat s.bits (col.val * per + j / 16)
    let r := writeElems t.bits (e.k.regs.v[vd]).toNat named fun j => cvtPlain s t (e.rnd rm j) (cell j)
    .ok (e.advance (acc.push { e.pend 3 (.v vd) r.v e.vlatch with
      en := laneMask t.bits named, evs := r.evs, vt := some tileReadMark }) rm)

def opVadd (vd : Fin 32) (va vb : Fin 40) (t : Ty) : SlotOp := opVAlu .add vd va vb t .rne
def opVsub (vd : Fin 32) (va vb : Fin 40) (t : Ty) : SlotOp := opVAlu .sub vd va vb t .rne
def opVmul (vd : Fin 32) (va vb : Fin 40) (t : Ty) : SlotOp := opVAlu .mul vd va vb t .rne
def opVmulh (vd : Fin 32) (va vb : Fin 40) (t : Ty) : SlotOp := opVAlu .mulh vd va vb t .rne
def opVadds (vd : Fin 32) (va vb : Fin 40) (t : Ty) : SlotOp := opVAlu .adds vd va vb t .rne
def opVsubs (vd : Fin 32) (va vb : Fin 40) (t : Ty) : SlotOp := opVAlu .subs vd va vb t .rne
def opVmin (vd : Fin 32) (va vb : Fin 40) (t : Ty) : SlotOp := opVAlu .min vd va vb t .rne
def opVmax (vd : Fin 32) (va vb : Fin 40) (t : Ty) : SlotOp := opVAlu .max vd va vb t .rne
def opVand (vd : Fin 32) (va vb : Fin 40) (t : Ty) : SlotOp := opVAlu .and vd va vb t .rne
def opVor (vd : Fin 32) (va vb : Fin 40) (t : Ty) : SlotOp := opVAlu .or vd va vb t .rne
def opVxor (vd : Fin 32) (va vb : Fin 40) (t : Ty) : SlotOp := opVAlu .xor vd va vb t .rne
def opVshl (vd : Fin 32) (va vb : Fin 40) (t : Ty) : SlotOp := opVAlu .shl vd va vb t .rne
def opVshr (vd : Fin 32) (va vb : Fin 40) (t : Ty) : SlotOp := opVAlu .shr vd va vb t .rne
def opVsra (vd : Fin 32) (va vb : Fin 40) (t : Ty) : SlotOp := opVAlu .sra vd va vb t .rne
def opVavg (vd : Fin 32) (va vb : Fin 40) (t : Ty) : SlotOp := opVAlu .avg vd va vb t .rne
def opVabsd (vd : Fin 32) (va vb : Fin 40) (t : Ty) : SlotOp := opVAlu .absd vd va vb t .rne
def opVabs (vd : Fin 32) (va : Fin 40) (t : Ty) : SlotOp := opVAlu1 .abs vd va t
def opVneg (vd : Fin 32) (va : Fin 40) (t : Ty) : SlotOp := opVAlu1 .neg vd va t
def opVnot (vd : Fin 32) (va : Fin 40) (t : Ty) : SlotOp := opVAlu1 .not vd va t
def opVclz (vd : Fin 32) (va : Fin 40) (t : Ty) : SlotOp := opVAlu1 .clz vd va t
def opVpopc (vd : Fin 32) (va : Fin 40) (t : Ty) : SlotOp := opVAlu1 .popc vd va t
def opVaddr (vd : Fin 32) (va vb : Fin 40) (t : Ty) (rm : Rm) : SlotOp := opVAlu .add vd va vb t rm
def opVmulr (vd : Fin 32) (va vb : Fin 40) (t : Ty) (rm : Rm) : SlotOp := opVAlu .mul vd va vb t rm
def opVaddi (vd : Fin 32) (va : Fin 40) (t : Ty) (imm : BitVec 32) : SlotOp := opVImm .add vd va t imm
def opVmuli (vd : Fin 32) (va : Fin 40) (t : Ty) (imm : BitVec 32) : SlotOp := opVImm .mul vd va t imm
def opVandi (vd : Fin 32) (va : Fin 40) (t : Ty) (imm : BitVec 32) : SlotOp := opVImm .and vd va t imm
def opVori (vd : Fin 32) (va : Fin 40) (t : Ty) (imm : BitVec 32) : SlotOp := opVImm .or vd va t imm
def opVshli (vd : Fin 32) (va : Fin 40) (t : Ty) (imm : BitVec 32) : SlotOp := opVImm .shl vd va t imm
def opVshri (vd : Fin 32) (va : Fin 40) (t : Ty) (imm : BitVec 32) : SlotOp := opVImm .shr vd va t imm
def opVsrai (vd : Fin 32) (va : Fin 40) (t : Ty) (imm : BitVec 32) : SlotOp := opVImm .sra vd va t imm

def opVfma (vd : Fin 32) (va vb : Fin 40) (t : Ty) (vc : Fin 40) (rm : Rm) : SlotOp := opVFma false false vd va vb t vc rm
def opVfms (vd : Fin 32) (va vb : Fin 40) (t : Ty) (vc : Fin 40) (rm : Rm) : SlotOp := opVFma false true vd va vb t vc rm
def opVfnma (vd : Fin 32) (va vb : Fin 40) (t : Ty) (vc : Fin 40) (rm : Rm) : SlotOp := opVFma true true vd va vb t vc rm
def opVfnms (vd : Fin 32) (va vb : Fin 40) (t : Ty) (vc : Fin 40) (rm : Rm) : SlotOp := opVFma true false vd va vb t vc rm

def opVrsum (vd : Fin 32) (va : Fin 40) (t : Ty) : SlotOp := opVRed .sum vd va t
def opVrmax (vd : Fin 32) (va : Fin 40) (t : Ty) : SlotOp := opVRed .max vd va t
def opVrmin (vd : Fin 32) (va : Fin 40) (t : Ty) : SlotOp := opVRed .min vd va t

def opVperm (vd : Fin 32) (va vb : Fin 40) (t : Ty) : SlotOp := opVMove .perm vd va (some vb) t
def opVzip (vd : Fin 32) (va vb : Fin 40) (t : Ty) : SlotOp := opVMove .zip vd va (some vb) t
def opVunzip (vd : Fin 32) (va vb : Fin 40) (t : Ty) : SlotOp := opVMove .unzip vd va (some vb) t
def opVslide (vd : Fin 32) (va vb : Fin 40) (t : Ty) : SlotOp := opVMove .slide vd va (some vb) t
def opVrev (vd : Fin 32) (va : Fin 40) (t : Ty) : SlotOp := opVMove .rev vd va none t

def opVcmpeq (pd : Fin 8) (va vb : Fin 40) (t : Ty) : SlotOp := opVCmp .eq pd va vb t
def opVcmpne (pd : Fin 8) (va vb : Fin 40) (t : Ty) : SlotOp := opVCmp .ne pd va vb t
def opVcmplt (pd : Fin 8) (va vb : Fin 40) (t : Ty) : SlotOp := opVCmp .lt pd va vb t
def opVcmple (pd : Fin 8) (va vb : Fin 40) (t : Ty) : SlotOp := opVCmp .le pd va vb t
def opVcmpgt (pd : Fin 8) (va vb : Fin 40) (t : Ty) : SlotOp := opVCmp .gt pd va vb t
def opVcmpge (pd : Fin 8) (va vb : Fin 40) (t : Ty) : SlotOp := opVCmp .ge pd va vb t
def opVcmpun (pd : Fin 8) (va vb : Fin 40) (t : Ty) : SlotOp := opVCmp .un pd va vb t

def opVpand (pd pa pb : Fin 8) : SlotOp := opVPred (fun a b => a && b) pd pa pb
def opVpor (pd pa pb : Fin 8) : SlotOp := opVPred (fun a b => a || b) pd pa pb
def opVpxor (pd pa pb : Fin 8) : SlotOp := opVPred (fun a b => a != b) pd pa pb
def opVpandn (pd pa pb : Fin 8) : SlotOp := opVPred (fun a b => a && !b) pd pa pb

def opVexp (vd : Fin 32) (va : Fin 40) (t : Ty) : SlotOp := opVSpecial .exp vd va t
def opVexp2 (vd : Fin 32) (va : Fin 40) (t : Ty) : SlotOp := opVSpecial .exp2 vd va t
def opVlog (vd : Fin 32) (va : Fin 40) (t : Ty) : SlotOp := opVSpecial .log vd va t
def opVlog2 (vd : Fin 32) (va : Fin 40) (t : Ty) : SlotOp := opVSpecial .log2 vd va t
def opVrcp (vd : Fin 32) (va : Fin 40) (t : Ty) : SlotOp := opVSpecial .rcp vd va t
def opVrsq (vd : Fin 32) (va : Fin 40) (t : Ty) : SlotOp := opVSpecial .rsq vd va t
def opVsqrt (vd : Fin 32) (va : Fin 40) (t : Ty) : SlotOp := opVSpecial .sqrt vd va t
def opVtanh (vd : Fin 32) (va : Fin 40) (t : Ty) : SlotOp := opVSpecial .tanh vd va t
def opVsigm (vd : Fin 32) (va : Fin 40) (t : Ty) : SlotOp := opVSpecial .sigm vd va t
def opVsilu (vd : Fin 32) (va : Fin 40) (t : Ty) : SlotOp := opVSpecial .silu vd va t
def opVgelu (vd : Fin 32) (va : Fin 40) (t : Ty) : SlotOp := opVSpecial .gelu vd va t
def opVsin (vd : Fin 32) (va : Fin 40) (t : Ty) : SlotOp := opVSpecial .sin vd va t
def opVcos (vd : Fin 32) (va : Fin 40) (t : Ty) : SlotOp := opVSpecial .cos vd va t
def opVerf (vd : Fin 32) (va : Fin 40) (t : Ty) : SlotOp := opVSpecial .erf vd va t

def opVround (vd : Fin 32) (va : Fin 40) (t : Ty) : SlotOp := opVIntegral false vd va t
def opVfloor (vd : Fin 32) (va : Fin 40) (t : Ty) : SlotOp := opVIntegral true vd va t
def opVwiden (vd : Fin 32) (va : Fin 40) (t : Ty) : SlotOp := opVWide false vd va t
def opVunpack (vd : Fin 32) (va : Fin 40) (t : Ty) : SlotOp := opVWide true vd va t

/-! Instructions: each issues alone in its bundle. -/

def execVnop (u : Bool) (s : State) : Host.Outcome State Fault Refusal := issueOne ⟨.always, .v u .vnop⟩ opVnop s
def execVadd (g : Guard) (u : Bool) (vd : Fin 32) (va vb : Fin 40) (t : Ty) (s : State) : Host.Outcome State Fault Refusal := issueOne ⟨g, .v u (.vadd vd va vb t)⟩ (opVadd vd va vb t) s
def execVsub (g : Guard) (u : Bool) (vd : Fin 32) (va vb : Fin 40) (t : Ty) (s : State) : Host.Outcome State Fault Refusal := issueOne ⟨g, .v u (.vsub vd va vb t)⟩ (opVsub vd va vb t) s
def execVmul (g : Guard) (u : Bool) (vd : Fin 32) (va vb : Fin 40) (t : Ty) (s : State) : Host.Outcome State Fault Refusal := issueOne ⟨g, .v u (.vmul vd va vb t)⟩ (opVmul vd va vb t) s
def execVmulh (g : Guard) (u : Bool) (vd : Fin 32) (va vb : Fin 40) (t : Ty) (s : State) : Host.Outcome State Fault Refusal := issueOne ⟨g, .v u (.vmulh vd va vb t)⟩ (opVmulh vd va vb t) s
def execVadds (g : Guard) (u : Bool) (vd : Fin 32) (va vb : Fin 40) (t : Ty) (s : State) : Host.Outcome State Fault Refusal := issueOne ⟨g, .v u (.vadds vd va vb t)⟩ (opVadds vd va vb t) s
def execVsubs (g : Guard) (u : Bool) (vd : Fin 32) (va vb : Fin 40) (t : Ty) (s : State) : Host.Outcome State Fault Refusal := issueOne ⟨g, .v u (.vsubs vd va vb t)⟩ (opVsubs vd va vb t) s
def execVmin (g : Guard) (u : Bool) (vd : Fin 32) (va vb : Fin 40) (t : Ty) (s : State) : Host.Outcome State Fault Refusal := issueOne ⟨g, .v u (.vmin vd va vb t)⟩ (opVmin vd va vb t) s
def execVmax (g : Guard) (u : Bool) (vd : Fin 32) (va vb : Fin 40) (t : Ty) (s : State) : Host.Outcome State Fault Refusal := issueOne ⟨g, .v u (.vmax vd va vb t)⟩ (opVmax vd va vb t) s
def execVabs (g : Guard) (u : Bool) (vd : Fin 32) (va : Fin 40) (t : Ty) (s : State) : Host.Outcome State Fault Refusal := issueOne ⟨g, .v u (.vabs vd va t)⟩ (opVabs vd va t) s
def execVneg (g : Guard) (u : Bool) (vd : Fin 32) (va : Fin 40) (t : Ty) (s : State) : Host.Outcome State Fault Refusal := issueOne ⟨g, .v u (.vneg vd va t)⟩ (opVneg vd va t) s
def execVand (g : Guard) (u : Bool) (vd : Fin 32) (va vb : Fin 40) (t : Ty) (s : State) : Host.Outcome State Fault Refusal := issueOne ⟨g, .v u (.vand vd va vb t)⟩ (opVand vd va vb t) s
def execVor (g : Guard) (u : Bool) (vd : Fin 32) (va vb : Fin 40) (t : Ty) (s : State) : Host.Outcome State Fault Refusal := issueOne ⟨g, .v u (.vor vd va vb t)⟩ (opVor vd va vb t) s
def execVxor (g : Guard) (u : Bool) (vd : Fin 32) (va vb : Fin 40) (t : Ty) (s : State) : Host.Outcome State Fault Refusal := issueOne ⟨g, .v u (.vxor vd va vb t)⟩ (opVxor vd va vb t) s
def execVnot (g : Guard) (u : Bool) (vd : Fin 32) (va : Fin 40) (t : Ty) (s : State) : Host.Outcome State Fault Refusal := issueOne ⟨g, .v u (.vnot vd va t)⟩ (opVnot vd va t) s
def execVshl (g : Guard) (u : Bool) (vd : Fin 32) (va vb : Fin 40) (t : Ty) (s : State) : Host.Outcome State Fault Refusal := issueOne ⟨g, .v u (.vshl vd va vb t)⟩ (opVshl vd va vb t) s
def execVshr (g : Guard) (u : Bool) (vd : Fin 32) (va vb : Fin 40) (t : Ty) (s : State) : Host.Outcome State Fault Refusal := issueOne ⟨g, .v u (.vshr vd va vb t)⟩ (opVshr vd va vb t) s
def execVsra (g : Guard) (u : Bool) (vd : Fin 32) (va vb : Fin 40) (t : Ty) (s : State) : Host.Outcome State Fault Refusal := issueOne ⟨g, .v u (.vsra vd va vb t)⟩ (opVsra vd va vb t) s
def execVavg (g : Guard) (u : Bool) (vd : Fin 32) (va vb : Fin 40) (t : Ty) (s : State) : Host.Outcome State Fault Refusal := issueOne ⟨g, .v u (.vavg vd va vb t)⟩ (opVavg vd va vb t) s
def execVabsd (g : Guard) (u : Bool) (vd : Fin 32) (va vb : Fin 40) (t : Ty) (s : State) : Host.Outcome State Fault Refusal := issueOne ⟨g, .v u (.vabsd vd va vb t)⟩ (opVabsd vd va vb t) s
def execVclz (g : Guard) (u : Bool) (vd : Fin 32) (va : Fin 40) (t : Ty) (s : State) : Host.Outcome State Fault Refusal := issueOne ⟨g, .v u (.vclz vd va t)⟩ (opVclz vd va t) s
def execVpopc (g : Guard) (u : Bool) (vd : Fin 32) (va : Fin 40) (t : Ty) (s : State) : Host.Outcome State Fault Refusal := issueOne ⟨g, .v u (.vpopc vd va t)⟩ (opVpopc vd va t) s
def execVmov (g : Guard) (u : Bool) (vd : Fin 32) (va : Fin 40) (t : Ty) (s : State) : Host.Outcome State Fault Refusal := issueOne ⟨g, .v u (.vmov vd va t)⟩ (opVmov vd va t) s
def execVrsum (g : Guard) (u : Bool) (vd : Fin 32) (va : Fin 40) (t : Ty) (s : State) : Host.Outcome State Fault Refusal := issueOne ⟨g, .v u (.vrsum vd va t)⟩ (opVrsum vd va t) s
def execVrmax (g : Guard) (u : Bool) (vd : Fin 32) (va : Fin 40) (t : Ty) (s : State) : Host.Outcome State Fault Refusal := issueOne ⟨g, .v u (.vrmax vd va t)⟩ (opVrmax vd va t) s
def execVrmin (g : Guard) (u : Bool) (vd : Fin 32) (va : Fin 40) (t : Ty) (s : State) : Host.Outcome State Fault Refusal := issueOne ⟨g, .v u (.vrmin vd va t)⟩ (opVrmin vd va t) s
def execVperm (g : Guard) (u : Bool) (vd : Fin 32) (va vb : Fin 40) (t : Ty) (s : State) : Host.Outcome State Fault Refusal := issueOne ⟨g, .v u (.vperm vd va vb t)⟩ (opVperm vd va vb t) s
def execVzip (g : Guard) (u : Bool) (vd : Fin 32) (va vb : Fin 40) (t : Ty) (s : State) : Host.Outcome State Fault Refusal := issueOne ⟨g, .v u (.vzip vd va vb t)⟩ (opVzip vd va vb t) s
def execVunzip (g : Guard) (u : Bool) (vd : Fin 32) (va vb : Fin 40) (t : Ty) (s : State) : Host.Outcome State Fault Refusal := issueOne ⟨g, .v u (.vunzip vd va vb t)⟩ (opVunzip vd va vb t) s
def execVmaxexp (g : Guard) (u : Bool) (va : Fin 40) (t : Ty) (s : State) : Host.Outcome State Fault Refusal := issueOne ⟨g, .v u (.vmaxexp va t)⟩ (opVmaxexp va t) s
def execVseedx (g : Guard) (u : Bool) (vd : Fin 32) (va : Fin 40) (t : Ty) (s : State) : Host.Outcome State Fault Refusal := issueOne ⟨g, .v u (.vseedx vd va t)⟩ (opVseedx vd va t) s
def execVseedc (g : Guard) (u : Bool) (vd : Fin 32) (va vb : Fin 40) (t : Ty) (s : State) : Host.Outcome State Fault Refusal := issueOne ⟨g, .v u (.vseedc vd va vb t)⟩ (opVseedc vd va vb t) s
def execVfma (g : Guard) (u : Bool) (vd : Fin 32) (va vb : Fin 40) (t : Ty) (vc : Fin 40) (rm : Rm) (s : State) : Host.Outcome State Fault Refusal := issueOne ⟨g, .v u (.vfma vd va vb t vc rm)⟩ (opVfma vd va vb t vc rm) s
def execVfms (g : Guard) (u : Bool) (vd : Fin 32) (va vb : Fin 40) (t : Ty) (vc : Fin 40) (rm : Rm) (s : State) : Host.Outcome State Fault Refusal := issueOne ⟨g, .v u (.vfms vd va vb t vc rm)⟩ (opVfms vd va vb t vc rm) s
def execVfnma (g : Guard) (u : Bool) (vd : Fin 32) (va vb : Fin 40) (t : Ty) (vc : Fin 40) (rm : Rm) (s : State) : Host.Outcome State Fault Refusal := issueOne ⟨g, .v u (.vfnma vd va vb t vc rm)⟩ (opVfnma vd va vb t vc rm) s
def execVfnms (g : Guard) (u : Bool) (vd : Fin 32) (va vb : Fin 40) (t : Ty) (vc : Fin 40) (rm : Rm) (s : State) : Host.Outcome State Fault Refusal := issueOne ⟨g, .v u (.vfnms vd va vb t vc rm)⟩ (opVfnms vd va vb t vc rm) s
def execVsel (g : Guard) (u : Bool) (vd : Fin 32) (va vb : Fin 40) (t : Ty) (ps : Fin 8) (s : State) : Host.Outcome State Fault Refusal := issueOne ⟨g, .v u (.vsel vd va vb t ps)⟩ (opVsel vd va vb t ps) s
def execVaddr (g : Guard) (u : Bool) (vd : Fin 32) (va vb : Fin 40) (t : Ty) (rm : Rm) (s : State) : Host.Outcome State Fault Refusal := issueOne ⟨g, .v u (.vaddr vd va vb t rm)⟩ (opVaddr vd va vb t rm) s
def execVmulr (g : Guard) (u : Bool) (vd : Fin 32) (va vb : Fin 40) (t : Ty) (rm : Rm) (s : State) : Host.Outcome State Fault Refusal := issueOne ⟨g, .v u (.vmulr vd va vb t rm)⟩ (opVmulr vd va vb t rm) s
def execVcvt (g : Guard) (u : Bool) (vd : Fin 32) (va : Fin 40) (ts td : Ty) (sc : BitVec 6) (rm : Rm) (part : Fin 8) (s : State) : Host.Outcome State Fault Refusal := issueOne ⟨g, .v u (.vcvt vd va ts td sc rm part)⟩ (opVcvt vd va ts td sc rm part) s
def execVaddi (g : Guard) (u : Bool) (vd : Fin 32) (va : Fin 40) (t : Ty) (imm : BitVec 32) (s : State) : Host.Outcome State Fault Refusal := issueOne ⟨g, .v u (.vaddi vd va t imm)⟩ (opVaddi vd va t imm) s
def execVmuli (g : Guard) (u : Bool) (vd : Fin 32) (va : Fin 40) (t : Ty) (imm : BitVec 32) (s : State) : Host.Outcome State Fault Refusal := issueOne ⟨g, .v u (.vmuli vd va t imm)⟩ (opVmuli vd va t imm) s
def execVandi (g : Guard) (u : Bool) (vd : Fin 32) (va : Fin 40) (t : Ty) (imm : BitVec 32) (s : State) : Host.Outcome State Fault Refusal := issueOne ⟨g, .v u (.vandi vd va t imm)⟩ (opVandi vd va t imm) s
def execVori (g : Guard) (u : Bool) (vd : Fin 32) (va : Fin 40) (t : Ty) (imm : BitVec 32) (s : State) : Host.Outcome State Fault Refusal := issueOne ⟨g, .v u (.vori vd va t imm)⟩ (opVori vd va t imm) s
def execVshli (g : Guard) (u : Bool) (vd : Fin 32) (va : Fin 40) (t : Ty) (imm : BitVec 32) (s : State) : Host.Outcome State Fault Refusal := issueOne ⟨g, .v u (.vshli vd va t imm)⟩ (opVshli vd va t imm) s
def execVshri (g : Guard) (u : Bool) (vd : Fin 32) (va : Fin 40) (t : Ty) (imm : BitVec 32) (s : State) : Host.Outcome State Fault Refusal := issueOne ⟨g, .v u (.vshri vd va t imm)⟩ (opVshri vd va t imm) s
def execVsrai (g : Guard) (u : Bool) (vd : Fin 32) (va : Fin 40) (t : Ty) (imm : BitVec 32) (s : State) : Host.Outcome State Fault Refusal := issueOne ⟨g, .v u (.vsrai vd va t imm)⟩ (opVsrai vd va t imm) s
def execVbcst (g : Guard) (u : Bool) (vd : Fin 32) (t : Ty) (imm : BitVec 32) (s : State) : Host.Outcome State Fault Refusal := issueOne ⟨g, .v u (.vbcst vd t imm)⟩ (opVbcst vd t imm) s
def execVcmpeq (g : Guard) (u : Bool) (pd : Fin 8) (va vb : Fin 40) (t : Ty) (s : State) : Host.Outcome State Fault Refusal := issueOne ⟨g, .v u (.vcmpeq pd va vb t)⟩ (opVcmpeq pd va vb t) s
def execVcmpne (g : Guard) (u : Bool) (pd : Fin 8) (va vb : Fin 40) (t : Ty) (s : State) : Host.Outcome State Fault Refusal := issueOne ⟨g, .v u (.vcmpne pd va vb t)⟩ (opVcmpne pd va vb t) s
def execVcmplt (g : Guard) (u : Bool) (pd : Fin 8) (va vb : Fin 40) (t : Ty) (s : State) : Host.Outcome State Fault Refusal := issueOne ⟨g, .v u (.vcmplt pd va vb t)⟩ (opVcmplt pd va vb t) s
def execVcmple (g : Guard) (u : Bool) (pd : Fin 8) (va vb : Fin 40) (t : Ty) (s : State) : Host.Outcome State Fault Refusal := issueOne ⟨g, .v u (.vcmple pd va vb t)⟩ (opVcmple pd va vb t) s
def execVcmpgt (g : Guard) (u : Bool) (pd : Fin 8) (va vb : Fin 40) (t : Ty) (s : State) : Host.Outcome State Fault Refusal := issueOne ⟨g, .v u (.vcmpgt pd va vb t)⟩ (opVcmpgt pd va vb t) s
def execVcmpge (g : Guard) (u : Bool) (pd : Fin 8) (va vb : Fin 40) (t : Ty) (s : State) : Host.Outcome State Fault Refusal := issueOne ⟨g, .v u (.vcmpge pd va vb t)⟩ (opVcmpge pd va vb t) s
def execVcmpun (g : Guard) (u : Bool) (pd : Fin 8) (va vb : Fin 40) (t : Ty) (s : State) : Host.Outcome State Fault Refusal := issueOne ⟨g, .v u (.vcmpun pd va vb t)⟩ (opVcmpun pd va vb t) s
def execVclass (g : Guard) (u : Bool) (pd : Fin 8) (va vb : Fin 40) (t : Ty) (s : State) : Host.Outcome State Fault Refusal := issueOne ⟨g, .v u (.vclass pd va vb t)⟩ (opVclass pd va vb t) s
def execVpand (g : Guard) (u : Bool) (pd pa pb : Fin 8) (s : State) : Host.Outcome State Fault Refusal := issueOne ⟨g, .v u (.vpand pd pa pb)⟩ (opVpand pd pa pb) s
def execVpor (g : Guard) (u : Bool) (pd pa pb : Fin 8) (s : State) : Host.Outcome State Fault Refusal := issueOne ⟨g, .v u (.vpor pd pa pb)⟩ (opVpor pd pa pb) s
def execVpxor (g : Guard) (u : Bool) (pd pa pb : Fin 8) (s : State) : Host.Outcome State Fault Refusal := issueOne ⟨g, .v u (.vpxor pd pa pb)⟩ (opVpxor pd pa pb) s
def execVpandn (g : Guard) (u : Bool) (pd pa pb : Fin 8) (s : State) : Host.Outcome State Fault Refusal := issueOne ⟨g, .v u (.vpandn pd pa pb)⟩ (opVpandn pd pa pb) s
def execVexp (g : Guard) (u : Bool) (vd : Fin 32) (va : Fin 40) (t : Ty) (s : State) : Host.Outcome State Fault Refusal := issueOne ⟨g, .v u (.vexp vd va t)⟩ (opVexp vd va t) s
def execVexp2 (g : Guard) (u : Bool) (vd : Fin 32) (va : Fin 40) (t : Ty) (s : State) : Host.Outcome State Fault Refusal := issueOne ⟨g, .v u (.vexp2 vd va t)⟩ (opVexp2 vd va t) s
def execVlog (g : Guard) (u : Bool) (vd : Fin 32) (va : Fin 40) (t : Ty) (s : State) : Host.Outcome State Fault Refusal := issueOne ⟨g, .v u (.vlog vd va t)⟩ (opVlog vd va t) s
def execVlog2 (g : Guard) (u : Bool) (vd : Fin 32) (va : Fin 40) (t : Ty) (s : State) : Host.Outcome State Fault Refusal := issueOne ⟨g, .v u (.vlog2 vd va t)⟩ (opVlog2 vd va t) s
def execVrcp (g : Guard) (u : Bool) (vd : Fin 32) (va : Fin 40) (t : Ty) (s : State) : Host.Outcome State Fault Refusal := issueOne ⟨g, .v u (.vrcp vd va t)⟩ (opVrcp vd va t) s
def execVrsq (g : Guard) (u : Bool) (vd : Fin 32) (va : Fin 40) (t : Ty) (s : State) : Host.Outcome State Fault Refusal := issueOne ⟨g, .v u (.vrsq vd va t)⟩ (opVrsq vd va t) s
def execVsqrt (g : Guard) (u : Bool) (vd : Fin 32) (va : Fin 40) (t : Ty) (s : State) : Host.Outcome State Fault Refusal := issueOne ⟨g, .v u (.vsqrt vd va t)⟩ (opVsqrt vd va t) s
def execVtanh (g : Guard) (u : Bool) (vd : Fin 32) (va : Fin 40) (t : Ty) (s : State) : Host.Outcome State Fault Refusal := issueOne ⟨g, .v u (.vtanh vd va t)⟩ (opVtanh vd va t) s
def execVsigm (g : Guard) (u : Bool) (vd : Fin 32) (va : Fin 40) (t : Ty) (s : State) : Host.Outcome State Fault Refusal := issueOne ⟨g, .v u (.vsigm vd va t)⟩ (opVsigm vd va t) s
def execVsilu (g : Guard) (u : Bool) (vd : Fin 32) (va : Fin 40) (t : Ty) (s : State) : Host.Outcome State Fault Refusal := issueOne ⟨g, .v u (.vsilu vd va t)⟩ (opVsilu vd va t) s
def execVgelu (g : Guard) (u : Bool) (vd : Fin 32) (va : Fin 40) (t : Ty) (s : State) : Host.Outcome State Fault Refusal := issueOne ⟨g, .v u (.vgelu vd va t)⟩ (opVgelu vd va t) s
def execVsin (g : Guard) (u : Bool) (vd : Fin 32) (va : Fin 40) (t : Ty) (s : State) : Host.Outcome State Fault Refusal := issueOne ⟨g, .v u (.vsin vd va t)⟩ (opVsin vd va t) s
def execVcos (g : Guard) (u : Bool) (vd : Fin 32) (va : Fin 40) (t : Ty) (s : State) : Host.Outcome State Fault Refusal := issueOne ⟨g, .v u (.vcos vd va t)⟩ (opVcos vd va t) s
def execVerf (g : Guard) (u : Bool) (vd : Fin 32) (va : Fin 40) (t : Ty) (s : State) : Host.Outcome State Fault Refusal := issueOne ⟨g, .v u (.verf vd va t)⟩ (opVerf vd va t) s
def execVtwr (g : Guard) (u : Bool) (vd : Fin 32) (x : Fin 4) (k : Fin 16) (td ts : Ty) (rm : Rm) (s : State) : Host.Outcome State Fault Refusal := issueOne ⟨g, .v u (.vtwr vd x k td ts rm)⟩ (opVtwr vd x k td ts rm) s
def execVtrd (g : Guard) (u : Bool) (vd : Fin 32) (x : Fin 4) (k : Fin 16) (td ts : Ty) (rm : Rm) (s : State) : Host.Outcome State Fault Refusal := issueOne ⟨g, .v u (.vtrd vd x k td ts rm)⟩ (opVtrd vd x k td ts rm) s
def execVwiden (g : Guard) (u : Bool) (vd : Fin 32) (va : Fin 40) (t : Ty) (s : State) : Host.Outcome State Fault Refusal := issueOne ⟨g, .v u (.vwiden vd va t)⟩ (opVwiden vd va t) s
def execVnarrow (g : Guard) (u : Bool) (vd : Fin 32) (va vb : Fin 40) (t : Ty) (s : State) : Host.Outcome State Fault Refusal := issueOne ⟨g, .v u (.vnarrow vd va vb t)⟩ (opVnarrow vd va vb t) s
def execVpack (g : Guard) (u : Bool) (vd : Fin 32) (va vb : Fin 40) (t : Ty) (s : State) : Host.Outcome State Fault Refusal := issueOne ⟨g, .v u (.vpack vd va vb t)⟩ (opVpack vd va vb t) s
def execVunpack (g : Guard) (u : Bool) (vd : Fin 32) (va : Fin 40) (t : Ty) (s : State) : Host.Outcome State Fault Refusal := issueOne ⟨g, .v u (.vunpack vd va t)⟩ (opVunpack vd va t) s
def execVsumw (g : Guard) (u : Bool) (vd : Fin 32) (va vb : Fin 40) (t : Ty) (s : State) : Host.Outcome State Fault Refusal := issueOne ⟨g, .v u (.vsumw vd va vb t)⟩ (opVsumw vd va vb t) s
def execVdot2 (g : Guard) (u : Bool) (vd : Fin 32) (va vb : Fin 40) (t : Ty) (s : State) : Host.Outcome State Fault Refusal := issueOne ⟨g, .v u (.vdot2 vd va vb t)⟩ (opVdot2 vd va vb t) s
def execVscale (g : Guard) (u : Bool) (vd : Fin 32) (va vb : Fin 40) (t : Ty) (s : State) : Host.Outcome State Fault Refusal := issueOne ⟨g, .v u (.vscale vd va vb t)⟩ (opVscale vd va vb t) s
def execVround (g : Guard) (u : Bool) (vd : Fin 32) (va : Fin 40) (t : Ty) (s : State) : Host.Outcome State Fault Refusal := issueOne ⟨g, .v u (.vround vd va t)⟩ (opVround vd va t) s
def execVfloor (g : Guard) (u : Bool) (vd : Fin 32) (va : Fin 40) (t : Ty) (s : State) : Host.Outcome State Fault Refusal := issueOne ⟨g, .v u (.vfloor vd va t)⟩ (opVfloor vd va t) s
def execVslide (g : Guard) (u : Bool) (vd : Fin 32) (va vb : Fin 40) (t : Ty) (s : State) : Host.Outcome State Fault Refusal := issueOne ⟨g, .v u (.vslide vd va vb t)⟩ (opVslide vd va vb t) s
def execVrev (g : Guard) (u : Bool) (vd : Fin 32) (va : Fin 40) (t : Ty) (s : State) : Host.Outcome State Fault Refusal := issueOne ⟨g, .v u (.vrev vd va t)⟩ (opVrev vd va t) s

end Sys2Proof.Machine
end

