-- ==== Sys2Proof/Machine/VecMem.lean ====
section
/-! DEFINITION. Vector-slot instructions that reach memory: loads, stores, gathers, scatters and VTBLD (05_vector.md R153 to R157, R164 to
R168; 06_lut_engine.md R172). -/

namespace Sys2Proof.Machine

open Sys2Proof

/-- The enabled byte lanes of a register with lanes of `w` bits: the units that take part (R28). -/
def Env.lanesOn (e : Env) (w : Nat) : List Nat := (List.range (elemsBelow e.vl w)).filter (e.on w)

/-- The checks of a VMEM access on its bytes, each with the lane of the register it belongs to (R165): bound or canonical form of every
byte, alignment of EA, then translation byte by byte. The result gives each lane its place in the scratchpad or in memory. -/
def Env.vmemCheck (e : Env) (a : Acc) (sp write : Bool) (ea : W64) (lanes : List Nat) :
    Except SlotFault (List (Nat × Nat) × Bool) × Acc :=
  let at0 := fun (l : Nat) => ea + BitVec.ofNat 64 l
  if sp then
    match lanes.find? fun l => ea.toNat + l ≥ 0x80000 with
    | some l => (.error (dataFault 0 (at0 l)), a)
    | none => if ea.toNat % 4 ≠ 0 then (.error (alignFault ea), a) else (.ok (lanes.map fun l => (l, ea.toNat + l), false), a)
  else if ea.toNat % 4 ≠ 0 && lanes.all fun l => canonical (at0 l) then (.error (alignFault ea), a)
  else
    let r := State.laneCheck (e.who a) (if write then .write else .read) (!write) (lanes.map fun l => (l, at0 l)) a.st
    (r.1, { a with st := r.2 })

/-- A checked VMEM access, watched, and held by a bank lock; `f` gets the places of the lanes and whether a page is CW. -/
def Env.vmem (e : Env) (a : Acc) (sp write : Bool) (ea : W64) (lanes : List Nat) (f : Acc → List (Nat × Nat) → Bool → SlotRes) : SlotRes :=
  match e.vmemCheck a sp write ea lanes with
  | (.error x, a) => .fault x a
  | (.ok (cells, cw), a) =>
    let bytes := lanes.map fun l => (ea + BitVec.ofNat 64 l).toNat
    if sp then e.spadAccess a (!write) write bytes fun a => f a cells cw
    else e.globalAccess a (!write) write bytes fun a => f a cells cw

/-- The displacement of a VMEM form (R164). -/
def vmemDisp (i : BitVec 10) : W64 := (i.signExtend 64) <<< 2

/-- The value of lanes read from the scratchpad: (lane, offset). -/
def spadLanes (m : Bytes) (cells : List (Nat × Nat)) : Nat := readLE (writeCells [] (cells.map fun x => (x.1, sget m x.2))) 0 256

/-- Byte enables of lanes. -/
def laneBits (cells : List (Nat × Nat)) : Nat := cells.foldl (fun m x => m ||| 2 ^ x.1) 0

/-- A load into the lanes of vD: at c + 4 from the scratchpad, interlocked from global memory (R164). -/
def Env.loadLanes (e : Env) (a : Acc) (sp noAlloc : Bool) (vd : Fin 32) (cells : List (Nat × Nat)) (cw : Bool) : SlotRes :=
  if sp then .ok (a.push { e.pend 4 (.v vd) (spadLanes e.k.spad cells) e.vlatch with en := laneBits cells })
  else .ok (a.mem e (.load (.v vd) .lanes cells noAlloc cw none))

/-- VLD and VLDNT. -/
def opVload (noAlloc : Bool) (vd : Fin 32) (ab : Fin 16) (sp pi : Bool) (i : BitVec 10) : SlotOp where
  srcs := [.a ab]
  dsts := [.v vd, .a ab]
  unit _ := 8
  body e a :=
    e.vmem a sp false (e.ea ab pi (vmemDisp i)) (e.lanesOn 8) fun a cells cw =>
      e.loadLanes (e.postInc a pi ab (vmemDisp i) none) sp noAlloc vd cells cw

/-- VST and VSTNT. -/
def opVstore (noAlloc : Bool) (vd : Fin 32) (ab : Fin 16) (sp pi : Bool) (i : BitVec 10) : SlotOp where
  srcs := [.a ab, .v vd]
  dsts := [.a ab]
  unit _ := 8
  body e a :=
    e.vmem a sp true (e.ea ab pi (vmemDisp i)) (e.lanesOn 8) fun a cells cw =>
      let a := e.postInc a pi ab (vmemDisp i) none
      let v := (e.k.regs.v[vd]).toNat
      let out : Bytes := cells.map fun x => (x.2, BitVec.ofNat 8 (elemAt v 8 x.1))
      .ok (if sp then { a with spad := writeCells a.spad out } else a.mem e (.store out cw noAlloc))

def opVld (vd : Fin 32) (ab : Fin 16) (sp pi : Bool) (i : BitVec 10) : SlotOp := opVload false vd ab sp pi i
def opVldnt (vd : Fin 32) (ab : Fin 16) (sp pi : Bool) (i : BitVec 10) : SlotOp := opVload true vd ab sp pi i
def opVst (vd : Fin 32) (ab : Fin 16) (sp pi : Bool) (i : BitVec 10) : SlotOp := opVstore false vd ab sp pi i
def opVstnt (vd : Fin 32) (ab : Fin 16) (sp pi : Bool) (i : BitVec 10) : SlotOp := opVstore true vd ab sp pi i

/-- VLDB (R164): the four bytes at EA into every enabled 32-bit element. -/
def opVldb (vd : Fin 32) (ab : Fin 16) (sp pi : Bool) (i : BitVec 10) : SlotOp where
  srcs := [.a ab]
  dsts := [.v vd, .a ab]
  unit _ := 32
  body e a :=
    e.vmem a sp false (e.ea ab pi (vmemDisp i)) [0, 1, 2, 3] fun a cells cw =>
      let all := (e.lanesOn 32).flatMap fun n => cells.map fun x => (4 * n + x.1, x.2)
      e.loadLanes (e.postInc a pi ab (vmemDisp i) none) sp false vd all cw

/-- EA of an element of a gather or scatter (R166). -/
def Env.vgatEa (e : Env) (ab : Fin 16) (vi : Fin 40) (w i : Nat) : W64 :=
  e.k.readA ab + BitVec.ofNat 64 (w * elemAt (e.src vi (8 * w)) (8 * w) i)

/-- The kind of access of a gather or scatter: VSCATA reads and writes in one step (R167). -/
def vgatKind (read write : Bool) : AccKind := if read && write then .atomic else if write then .write else .read

/-- Table 4-10 for the enabled elements in ascending index (R168): the place of each. An addition meets what is poisoned at the home
(10_cluster.md R300). -/
def Env.vgatCheck (e : Env) (w : Nat) (sp : Bool) (kind : AccKind) (ea : Nat → W64) : List Nat → Acc → Except SlotFault (List (Nat × Nat) × Bool) × Acc
  | [], a => (.ok ([], false), a)
  | i :: l, a =>
    if sp then
      match spadCheck (ea i) w with
      | some x => (.error x, a)
      | none =>
        match e.vgatCheck w sp kind ea l a with
        | (.ok (c, cw), a) => (.ok ((i, (ea i).toNat) :: c, cw), a)
        | r => r
    else
      match a.st.alignedCheck (e.who a) kind (ea i) w (kind == .read) with
      | (.error x, s) => (.error x, { a with st := s })
      | (.ok (x, p), s) =>
        if kind == .atomic && p == .mem && s.homePoison e.d e.c x.pa then (.error (dataFault 0x09 (ea i)), { a with st := s })
        else
        match e.vgatCheck w sp kind ea l { a with st := s } with
        | (.ok (c, cw), a) => (.ok ((i, x.pa) :: c, cw || x.cw), a)
        | r => r

/-- A checked gather or scatter: `f` gets the place of each enabled element. -/
def Env.vgat (e : Env) (a : Acc) (es : Width) (sp read write : Bool) (ab : Fin 16) (vi : Fin 40)
    (f : Acc → List (Nat × Nat) → Bool → SlotRes) : SlotRes :=
  let w := widthBits es / 8
  let on := e.lanesOn (8 * w)
  match e.vgatCheck w sp (vgatKind read write) (e.vgatEa ab vi w) on a with
  | (.error x, a) => .fault x a
  | (.ok (places, cw), a) =>
    let bytes := on.flatMap fun i => rangeOf (e.vgatEa ab vi w i).toNat w
    if sp then e.spadAccess a read write bytes fun a => f a places cw
    else e.globalAccess a read write bytes fun a => f a places cw

/-- VGATH (R166). -/
def opVgath (vd : Fin 32) (ab : Fin 16) (sp : Bool) (vi : Fin 40) (es : Width) : SlotOp where
  srcs := .a ab :: vsrc vi
  dsts := [.v vd]
  unit _ := widthBits es
  body e a := e.vgat a es sp true false ab vi fun a places cw =>
    let w := widthBits es / 8
    e.loadLanes a sp false vd (places.flatMap fun x => (List.range w).map fun j => (w * x.1 + j, x.2 + j)) cw

/-- VSCAT (R167): ascending elements, the last one kept. -/
def opVscat (vd : Fin 32) (ab : Fin 16) (sp : Bool) (vi : Fin 40) (es : Width) : SlotOp where
  srcs := [.a ab, .v vd] ++ vsrc vi
  unit _ := widthBits es
  body e a := e.vgat a es sp false true ab vi fun a places cw =>
    let w := widthBits es / 8
    let v := (e.k.regs.v[vd]).toNat
    let out : Bytes := places.flatMap fun x => (List.range w).map fun j => (x.2 + j, BitVec.ofNat 8 (elemAt v 8 (w * x.1 + j)))
    .ok (if sp then { a with spad := writeCells a.spad out } else a.mem e (.store out cw false))

/-- VSCATA (R167): every element is added in full. -/
def opVscata (vd : Fin 32) (ab : Fin 16) (sp : Bool) (vi : Fin 40) (es : Width) : SlotOp where
  srcs := [.a ab, .v vd] ++ vsrc vi
  unit _ := widthBits es
  body e a := e.vgat a es sp true true ab vi fun a places _ =>
    let w := widthBits es / 8
    let v := (e.k.regs.v[vd]).toNat
    let add (m : Bytes) (x : Nat × Nat) : Bytes := writeLE m x.2 w ((readLE m x.2 w + elemAt v (8 * w) x.1) % 2 ^ (8 * w))
    .ok (if sp then { a with spad := places.foldl add a.spad }
      else a.mem e (.addStore (places.map fun x => (x.2, w, elemAt v (8 * w) x.1))))

/-- A valid codebook context (06_lut_engine.md R172, Table 6-3). -/
def cbValid (cfg : Nat) : Bool :=
  let g := cbG cfg
  (match cbCode cfg with
    | 0 => decide (1 ≤ g) && decide (g ≤ 5)
    | 1 => decide (1 ≤ g) && decide (g ≤ 4)
    | 2 => g == 1 || g == 2
    | _ => decide (1 ≤ g) && decide (g ≤ 5)) &&
  decide (5 ≤ cbBlock cfg) && decide (cbBlock cfg ≤ 8) && bits cfg 3 2 == 0

/-- Check 8 of Table 5-9. -/
def cbSymmetric (cfg vals : Nat) : Bool :=
  (List.range (cbC cfg)).all fun d => cbValOf cfg vals (cbC cfg - 1 - d) == -cbValOf cfg vals d

/-- cb.val0 to cb.val3 as one number. -/
def Regs.cbVals (r : Regs) : Nat := packElems 32 (r.cbVal.toList.map (·.toNat))

/-- The checks of Table 5-9 in order, against the ring as the lower slots leave it (R155, R157). -/
def vtbldCheck (k : Core) (g : Ring) (acts row ng : Nat) (first : Bool) : Option Cause :=
  let cfg := k.regs.cbCfg.toNat
  let vals := k.regs.cbVals
  let rb := tableRowBytes cfg ng
  if !g.init then some .ringMisuse
  else if row > 15 ∨ ng = 0 ∨ ng > 256 ∨ cbG cfg * ng > 256 then some .ringMisuse
  else if first == g.openT.isSome then some .ringMisuse
  else if !first && (g.openT.any fun t => t.2.1 != ng) then some .ringMisuse
  else if 48 + (row + 1) * rb > g.slotBytes then some .ringMisuse
  else if !cbValid cfg then some .codebook
  else if !first && (g.openT.any fun t => t.2.2 != k.regs.cbGen.toNat) then some .codebook
  else if cbHalve cfg && !cbSymmetric cfg vals then some .codebook
  else if (tableRow cfg vals acts ng).any fun x => decide (x.2 < -32768) || decide (x.2 > 32767) then some .codebook
  else none

/-- A ring's handle (08_core_memory.md R220). -/
def ringHandle (g : Ring) (h : Fin 16) : Nat := 16 * g.gen.toNat + h.val

/-- The bytes of a ring slot that a VTBLD writes (R156): the header and the zeroed scale bytes or ROWS, a scale byte, a row. -/
def vtbldBytes (slot row rowBytes : Nat) (first : Bool) : List Nat :=
  (if first then rangeOf slot 48 else rangeOf (slot + 4) 2 ++ [slot + 32 + row]) ++ rangeOf (slot + 48 + row * rowBytes) rowBytes

/-- VTBLD (R153 to R157), an access to its ring slot (08_core_memory.md R240; 09_core_traps.md R273). The entry is assigned and the open state changes at issue; the row lands at c + 8. -/
def opVtbld (h : Fin 16) (va vb : Fin 40) : SlotOp where
  srcs := vsrc va ++ vsrc vb
  unit _ := 8
  body e a :=
    let ctl := e.k.readV vb 8
    let row := elemAt ctl 16 0
    let ng := elemAt ctl 16 1
    let first := ctl.testBit 32
    let last := ctl.testBit 33
    let acts := mergeLanes 8 256 0 (e.src va 8) (laneMask 8 (e.on 8))
    let g := a.rings[h]
    match vtbldCheck e.k g acts row ng first with
    | some c => .fault { cause := c } a
    | none =>
      let gen := e.k.regs.cbGen.toNat
      let entry := if first then g.a else (match g.openT with | some t => t.1 | none => g.a)
      e.spadAccess a (!first) true (vtbldBytes (g.slotAddr entry) row (tableRowBytes e.k.regs.cbCfg.toNat ng) first) fun a =>
        let a := if first && decide ((g.a - g.h).toNat ≥ g.nslot) then a.waitUntil e 3 (ringHandle g h) (.room h 1) else a
        let g := if first then { g with a := g.a + 1 } else g
        let g := { g with openT := if last then none else some (entry, ng, gen) }
        let t : VtbldArgs := ⟨e.k.regs.cbCfg.toNat, e.k.regs.cbVals, gen, (e.k.regs.sl.getD e.veng.val 0).toNat, ctl % 2 ^ 40, entry.toNat,
          g.gen.toNat⟩
        .ok ((a.setRing h g).push { e.pend 8 (.vtbld h) acts none with vt := some t })

/-! Instructions: each issues alone in its bundle. -/

def execVtbld (g : Guard) (u : Bool) (h : Fin 16) (va vb : Fin 40) (s : State) : Host.Outcome State Fault Refusal := issueOne ⟨g, .v u (.vtbld h va vb)⟩ (opVtbld h va vb) s
def execVld (g : Guard) (u : Bool) (vd : Fin 32) (ab : Fin 16) (sp pi : Bool) (i : BitVec 10) (s : State) : Host.Outcome State Fault Refusal := issueOne ⟨g, .v u (.vld vd ab sp pi i)⟩ (opVld vd ab sp pi i) s
def execVst (g : Guard) (u : Bool) (vd : Fin 32) (ab : Fin 16) (sp pi : Bool) (i : BitVec 10) (s : State) : Host.Outcome State Fault Refusal := issueOne ⟨g, .v u (.vst vd ab sp pi i)⟩ (opVst vd ab sp pi i) s
def execVldb (g : Guard) (u : Bool) (vd : Fin 32) (ab : Fin 16) (sp pi : Bool) (i : BitVec 10) (s : State) : Host.Outcome State Fault Refusal := issueOne ⟨g, .v u (.vldb vd ab sp pi i)⟩ (opVldb vd ab sp pi i) s
def execVldnt (g : Guard) (u : Bool) (vd : Fin 32) (ab : Fin 16) (sp pi : Bool) (i : BitVec 10) (s : State) : Host.Outcome State Fault Refusal := issueOne ⟨g, .v u (.vldnt vd ab sp pi i)⟩ (opVldnt vd ab sp pi i) s
def execVstnt (g : Guard) (u : Bool) (vd : Fin 32) (ab : Fin 16) (sp pi : Bool) (i : BitVec 10) (s : State) : Host.Outcome State Fault Refusal := issueOne ⟨g, .v u (.vstnt vd ab sp pi i)⟩ (opVstnt vd ab sp pi i) s
def execVgath (g : Guard) (u : Bool) (vd : Fin 32) (ab : Fin 16) (sp : Bool) (vi : Fin 40) (es : Width) (s : State) : Host.Outcome State Fault Refusal := issueOne ⟨g, .v u (.vgath vd ab sp vi es)⟩ (opVgath vd ab sp vi es) s
def execVscat (g : Guard) (u : Bool) (vd : Fin 32) (ab : Fin 16) (sp : Bool) (vi : Fin 40) (es : Width) (s : State) : Host.Outcome State Fault Refusal := issueOne ⟨g, .v u (.vscat vd ab sp vi es)⟩ (opVscat vd ab sp vi es) s
def execVscata (g : Guard) (u : Bool) (vd : Fin 32) (ab : Fin 16) (sp : Bool) (vi : Fin 40) (es : Width) (s : State) : Host.Outcome State Fault Refusal := issueOne ⟨g, .v u (.vscata vd ab sp vi es)⟩ (opVscata vd ab sp vi es) s

end Sys2Proof.Machine
end

