-- ==== Sys2Proof/Machine/Rings.lean ====
section
/-! DEFINITION. Rings and queue fences (08_core_memory.md R218 to R227). -/

namespace Sys2Proof.Machine

open Sys2Proof

/-- A descriptor that HINIT refuses (R219). -/
def ringDescBad (v : Nat) : Bool :=
  bits v 63 44 != 0 || bits v 23 20 != 0 || bits v 18 0 % 32 != 0 || decide (bits v 43 32 < 2) ||
    decide (bits v 18 0 + (bits v 31 24 + 1) * 32 * bits v 43 32 > 0x80000)

/-- The copy commands whose numbers `ids` names stop at their next chunk boundary (R227). -/
def Engines.stopCopies (x : Engines) (ids : List Nat) : Engines :=
  { x with yq := x.yq.map fun q => q.map fun y => if ids.contains y.id then { y with halted := true } else y }

/-- The copy commands that name a ring under its present generation, by issue. -/
def Engines.ringUsers (x : Engines) (h : Fin 16) (gen : BitVec 12) : List CopyCmd :=
  let mine (y : CopyCmd) : Bool := match y.ring with | some r => r.1 == h && r.2.1 == gen | none => false
  let insert (l : List CopyCmd) (y : CopyCmd) : List CopyCmd := l.filter (fun z => decide (z.id < y.id)) ++ [y] ++ l.filter fun z => decide (y.id < z.id)
  ((x.yq[0]).filter mine ++ (x.yq[1]).filter mine).foldl insert []

/-- ROWS of a command block (Table 8-4). -/
def blkRows (b : Nat) : Nat := elemAt b 16 16

/-- The commands, in issue order, that produce one of the entries `gone`: the entry a command was assigned, or for YPUSH those of the marked
entries that it would push, behind what earlier ones push (R227, R241; DEDUCED, log 71). -/
def producersOf (gone : BitVec 32 → Bool) : List CopyCmd → List (BitVec 32) → List Nat
  | [], _ => []
  | y :: l, marks =>
    match y.op with
    | .ypush _ _ _ _ =>
      let n := blkRows y.blk
      (if (marks.take n).any gone then [y.id] else []) ++ producersOf gone l (marks.drop n)
    | _ => (match y.ring with | some r => if gone r.2.2 then [y.id] else [] | none => []) ++ producersOf gone l marks

/-- The producers of discarded entries of a ring stop (R224, R227). -/
def Engines.stopProducers (x : Engines) (h : Fin 16) (g : Ring) (gone : BitVec 32 → Bool) : Engines :=
  x.stopCopies (producersOf gone (x.ringUsers h g.gen) g.marks)

/-- A ring that a matrix command names has been initialised anew since its issue (07_matrix_ops.md R196). -/
def MatCmd.stopped (m : MatCmd) (rings : Vector Ring 16) : Bool := m.gens.any fun x => (rings[x.1]).gen != x.2

/-- The head of the matrix queue leaves it as retired, with its token (04_control_scalar.md R102; 07_matrix_ops.md R196, R212). -/
def Engines.dropMat (x : Engines) (tok : Nat) : Engines :=
  match x.mq with
  | [] => x
  | m :: l => { x with mq := l, retired := x.retired + 1, toks := if tok = 0 then x.toks else x.toks ++ [(Eng.m, m.win, tok)] }

/-- A command held at a failed check stops when a ring it names is initialised anew (07_matrix_ops.md R196, R215). -/
def Engines.dropHeld (x : Engines) (rings : Vector Ring 16) : Engines :=
  match x.mq with
  | [] => x
  | m :: _ =>
    match m.st with
    | .held _ _ _ _ => if m.stopped rings then x.dropMat 1 else x
    | .waiting => x
    | .started => x

/-- A ring is initialised anew, or taken away: its producers stop, and a matrix command held on it (R219, R227). -/
def Acc.renewRing (a : Acc) (d : Fin 16) (g : Ring) : Acc :=
  let a := { a with eng := a.eng.stopCopies ((a.eng.ringUsers d (a.rings[d]).gen).map CopyCmd.id) }.setRing d g
  { a with eng := a.eng.dropHeld a.rings }

/-- HINIT (R219). -/
def opHinit (d : Fin 16) (src : Fin 32) : SlotOp where
  srcs := [.s src]
  body e a :=
    let v := e.k.readS src
    let g := a.rings[d]
    let gen := g.gen + 1
    if v = 0 then .ok (a.renewRing d { g with init := false, gen := gen })
    else if ringDescBad v.toNat then .fault { cause := .ringMisuse } a
    else .ok (a.renewRing d { Ring.empty with init := true, gen := gen, desc := v })

/-- The check of the counted forms (R223). -/
def Env.counted (_ : Env) (a : Acc) (d : Fin 16) (n : Nat) (f : Ring → SlotRes) : SlotRes :=
  let g := a.rings[d]
  if !g.init || decide (n > g.nslot) then .fault { cause := .ringMisuse } a else f g

def opHwait (d : Fin 16) (n : BitVec 11) : SlotOp where
  body e a := e.counted a d n.toNat fun g =>
    .ok (if (g.t - g.h).toNat ≥ n.toNat then a else a.waitUntil e 3 (ringHandle g d) (.pushed d n.toNat))

/-- HRES (R221, R223). -/
def opHres (d : Fin 16) (n : BitVec 11) : SlotOp where
  body e a := e.counted a d n.toNat fun g =>
    let a := if n.toNat = 0 ∨ (g.a - g.h).toNat + n.toNat ≤ g.nslot then a else a.waitUntil e 3 (ringHandle g d) (.room d n.toNat)
    let new := (List.range n.toNat).map fun i => g.a + BitVec.ofNat 32 i
    .ok (a.setRing d { g with a := g.a + BitVec.ofNat 32 n.toNat, marks := g.marks ++ new })

def opHadv (d : Fin 16) (n : BitVec 11) : SlotOp where
  body e a := e.counted a d n.toNat fun g =>
    if n.toNat > (g.t - g.h).toNat ∨ (g.win ∧ n.toNat > (g.c - g.h).toNat) then .fault { cause := .ringMisuse } a
    else
      let h := g.h + BitVec.ofNat 32 n.toNat
      .ok (a.setRing d { g with h := h })

/-- HCOMMIT (R224): the checks come before the wait; later entries are discarded with their producers, marks and open tile, and the
VTBLD writes of earlier bundles for them (R227). -/
def opHcommit (d : Fin 16) (src : Fin 32) : SlotOp where
  srcs := [.s src]
  body e a :=
    let g := a.rings[d]
    let n := (e.k.readS src).toNat
    if !g.init || !g.win || decide (n > (g.a - g.c).toNat) then .fault { cause := .ringMisuse } a
    else
      let a := if (g.t - g.c).toNat ≥ n then a else a.waitUntil e 3 (ringHandle g d) (.committed d n)
      let c := g.c + BitVec.ofNat 32 n
      let gone (x : BitVec 32) : Bool := decide ((x - c).toNat < (g.a - c).toNat)
      let a := { a with eng := a.eng.stopProducers d g gone }
      let a := a.setRing d { g with c := c, t := c, a := c, marks := g.marks.filter fun x => !gone x, done := g.done.filter fun x => !gone x,
                                    openT := match g.openT with | some t => if gone t.1 then none else some t | none => none }
      let stale (w : Pend) : Bool := w.dst == .vtbld d && match w.vt with | some t => gone (BitVec.ofNat 32 t.entry) | none => false
      .ok { a with stale := fun w => a.stale w || stale w }

def opHget (d : Fin 32) (h : Fin 16) : SlotOp where
  dsts := [.s d]
  body e a := e.ctl a (.s d) (ringHandle a.rings[h] h)

/-- HSTAT (R225). -/
def ringStat (g : Ring) : Nat :=
  if !g.init then 0
  else ((g.t - g.h).toNat + 2 ^ 16 * (g.a - g.h).toNat + 2 ^ 32 * (g.c - g.h).toNat + 2 ^ 48 * (g.h.toNat % g.nslot)) % 2 ^ 64

def opHstat (d : Fin 32) (h : Fin 16) : SlotOp where
  dsts := [.s d]
  body e a := e.ctl a (.s d) (ringStat a.rings[h])

/-- Commands in the queues of the engines of a mask. -/
def Engines.commandsOf (x : Engines) (m : Nat) : List Nat :=
  (if m.testBit 2 then x.mq.map (·.id) else []) ++ (if m.testBit 3 then (x.yq[0]).map (·.id) else []) ++
    (if m.testBit 4 then (x.yq[1]).map (·.id) else [])

/-- Commands still in any queue. -/
def Engines.outstanding (x : Engines) (id : Nat) : Bool := (x.commandsOf 0x1C).contains id

/-- Whether a fence joins the interlocked results of a slot. -/
def QFence.joins (f : QFence) (slot : Nat) : Bool := (f.mask.testBit 0 && slot == 3) || (f.mask.testBit 1 && slot == 4)

/-- Whether a fence still has something to wait for: joined commands in their queues, or interlocked results of V0 and V1 that have yet to
land, those behind an earlier write of their register among them (01_bundles.md R34). -/
def Core.fenceLive (k : Core) (f : QFence) : Bool :=
  f.cmds.any k.eng.outstanding ||
    (k.memq.any fun m => decide (m.bseq < f.bseq) && m.kind.dst.isSome && f.joins m.slot) ||
    k.held.any fun h => h.handler == f.handler && decide (h.iss < f.iss) && f.joins h.slot

/-- QFENCE (R226). -/
def opQfence (m : BitVec 5) : SlotOp where
  body e a :=
    let f : QFence := ⟨m.toNat, e.k.bseq, e.iss, e.k.handler, a.eng.commandsOf m.toNat⟩
    .ok (if m = 0 then a else { a with eng := { a.eng with fences := (a.eng.fences.filter e.k.fenceLive) ++ [f] } })

/-- Whether a fence holds back a command of an engine pushed by bundle `bseq` (R226). -/
def Core.fenced (k : Core) (g : Eng) (bseq : Nat) : Bool :=
  k.eng.fences.any fun f => f.mask.testBit (engIdx g).val && decide (f.bseq < bseq) && k.fenceLive f

/-! Instructions: each issues alone in its bundle. -/

def execHinit (g : Guard) (d : Fin 16) (a : Fin 32) (s : State) : Host.Outcome State Fault Refusal := issueOne ⟨g, .c (.hinit d a)⟩ (opHinit d a) s
def execHwait (g : Guard) (d : Fin 16) (n : BitVec 11) (s : State) : Host.Outcome State Fault Refusal := issueOne ⟨g, .c (.hwait d n)⟩ (opHwait d n) s
def execHres (g : Guard) (d : Fin 16) (n : BitVec 11) (s : State) : Host.Outcome State Fault Refusal := issueOne ⟨g, .c (.hres d n)⟩ (opHres d n) s
def execHadv (g : Guard) (d : Fin 16) (n : BitVec 11) (s : State) : Host.Outcome State Fault Refusal := issueOne ⟨g, .c (.hadv d n)⟩ (opHadv d n) s
def execHcommit (g : Guard) (d : Fin 16) (a : Fin 32) (s : State) : Host.Outcome State Fault Refusal := issueOne ⟨g, .c (.hcommit d a)⟩ (opHcommit d a) s
def execHget (g : Guard) (d : Fin 32) (a : Fin 16) (s : State) : Host.Outcome State Fault Refusal := issueOne ⟨g, .c (.hget d a)⟩ (opHget d a) s
def execHstat (g : Guard) (d : Fin 32) (a : Fin 16) (s : State) : Host.Outcome State Fault Refusal := issueOne ⟨g, .c (.hstat d a)⟩ (opHstat d a) s
def execQfence (g : Guard) (m : BitVec 5) (s : State) : Host.Outcome State Fault Refusal := issueOne ⟨g, .c (.qfence m)⟩ (opQfence m) s

end Sys2Proof.Machine
end

