-- ==== Sys2Proof/Machine/Matrix.lean ====
section
/-! DEFINITION. Matrix-slot instructions at issue (06_lut_engine.md R169 to R172, R179; 07_matrix_ops.md R191 to R213). -/

namespace Sys2Proof.Machine

open Sys2Proof

/-- Object of a wait on the matrix queue (Table 9-10): its engine code. -/
def matrixQueue : Nat := 2

/-- Pushes a matrix command with what it reads at issue (R192, R194); a full queue waits. -/
def Env.pushMat (e : Env) (a : Acc) (op : MatrixOp) (grant : Nat) (rings : List (Fin 16)) (vd : Nat) : SlotRes :=
  let look := (lutForm op).isSome
  let m : MatCmd := {
    id := a.eng.nextId, g := e.g, op := op, baddr := e.baddr, iss := e.iss, bseq := e.k.bseq, handler := e.k.handler,
    cfg := if look then e.k.regs.cbCfg.toNat else 0, cbGen := if look then e.k.regs.cbGen.toNat else 0, gm := shM grant, gn := shN grant, gk := shKB grant,
    gens := rings.map fun h => (h, (a.rings[h]).gen), st := .waiting, vd := vd, win := a.eng.win[engIdx .m], tiles := [], mask := 0, done := [] }
  let a := if a.eng.mq.length ≥ 16 then a.wait e 2 matrixQueue (agentEng .m) else a
  .ok { a with eng := { a.eng with mq := a.eng.mq ++ [m], nextId := a.eng.nextId + 1 } }

/-- Rows 1 and 2 of Table 7-2. -/
def gridBad (grant row col : Nat) : Bool :=
  shKind grant != 1 || decide (row + shM grant > 64) || decide (32 * col + shN grant > 512)

/-- The lookup forms at issue (R195, Table 7-2). -/
def opLookup (op : MatrixOp) (f : LutForm) : SlotOp where
  body e a :=
    let grant := (e.k.regs.sh[f.sh]).toNat
    if gridBad grant f.row.val f.col.val then .fault { cause := .shape } a
    else if f.rings.any fun h => !(a.rings[h]).init then .fault { cause := .ringMisuse } a
    else if f.ht == f.hw || (match f.lists with | some (p, s) => p == f.ht || p == f.hw || s == f.ht || s == f.hw | none => false)
      then .fault { cause := .ringMisuse } a
    else if !cbValid e.k.regs.cbCfg.toNat then .fault { cause := .codebook } a
    else e.pushMat a op grant f.rings 0

def opMnop : SlotOp := opNothing

def opMlut (ht hw : Fin 16) (row : Fin 64) (col : Fin 16) (sh : Fin 4) (clr : Bool) : SlotOp :=
  opLookup (.mlut ht hw row col sh clr) ⟨ht, hw, row, col, sh, clr, none, false, false⟩
def opMlutg (ht hw : Fin 16) (row : Fin 64) (col : Fin 16) (sh : Fin 4) (clr : Bool) (hp hs : Fin 16) : SlotOp :=
  opLookup (.mlutg ht hw row col sh clr hp hs) ⟨ht, hw, row, col, sh, clr, some (hp, hs), false, false⟩
def opMluts (ht hw : Fin 16) (row : Fin 64) (col : Fin 16) (sh : Fin 4) (clr : Bool) : SlotOp :=
  opLookup (.mluts ht hw row col sh clr) ⟨ht, hw, row, col, sh, clr, none, true, false⟩
def opMlutsg (ht hw : Fin 16) (row : Fin 64) (col : Fin 16) (sh : Fin 4) (clr : Bool) (hp hs : Fin 16) : SlotOp :=
  opLookup (.mlutsg ht hw row col sh clr hp hs) ⟨ht, hw, row, col, sh, clr, some (hp, hs), true, false⟩
def opMlutk (ht hw : Fin 16) (row : Fin 64) (col : Fin 16) (sh : Fin 4) (clr : Bool) : SlotOp :=
  opLookup (.mlutk ht hw row col sh clr) ⟨ht, hw, row, col, sh, clr, none, false, true⟩
def opMlutgk (ht hw : Fin 16) (row : Fin 64) (col : Fin 16) (sh : Fin 4) (clr : Bool) (hp hs : Fin 16) : SlotOp :=
  opLookup (.mlutgk ht hw row col sh clr hp hs) ⟨ht, hw, row, col, sh, clr, some (hp, hs), false, true⟩

/-- MACLR (R208). -/
def opMaclr (row : Fin 64) (col : Fin 16) (sh : Fin 4) : SlotOp where
  body e a :=
    let grant := (e.k.regs.sh[sh]).toNat
    if gridBad grant row.val col.val then .fault { cause := .shape } a else e.pushMat a (.maclr row col sh) grant [] 0

/-- MMASK (R209). -/
def opMmask (ht : Fin 16) : SlotOp where
  body e a := if !(a.rings[ht]).init then .fault { cause := .ringMisuse } a else e.pushMat a (.mmask ht) 0 [ht] 0

/-- MACWR and MBIAS read vD at issue (R207). -/
def opMacwr (vd : Fin 32) (row : Fin 64) (col : Fin 16) : SlotOp where
  srcs := [.v vd]
  body e a := e.pushMat a (.macwr vd row col) 0 [] (e.k.regs.v[vd]).toNat

def opMbias (vd : Fin 32) (row : Fin 64) (col : Fin 16) : SlotOp where
  srcs := [.v vd]
  body e a := e.pushMat a (.mbias vd row col) 0 [] (e.k.regs.v[vd]).toNat

/-- MCBSET (R197). -/
def opMcbset (s : Fin 32) (sel : Fin 8) : SlotOp where
  srcs := [.s s]
  illegal _ := decide (5 ≤ sel.val)
  body e a :=
    if h : sel.val < 5 then
      let v := (e.k.readS s).toNat
      e.ctl a (.cb ⟨sel.val, h⟩) (if sel.val = 0 then v % 2 ^ 16 else v % 2 ^ 32)
    else .fault { cause := .slotIllegal } a

/-- MCBGET (R198). -/
def opMcbget (s : Fin 32) (sel : Fin 8) : SlotOp where
  dsts := [.s s]
  illegal _ := decide (6 ≤ sel.val)
  body e a :=
    let r := e.k.regs
    e.ctl a (.s s)
      (if sel.val = 0 then r.cbCfg.toNat else if sel.val = 5 then r.cbGen.toNat else (r.cbVal.getD (sel.val - 1) 0).toNat)

/-- The first command held at a failed check. -/
def Engines.heldFail (x : Engines) : Nat :=
  (x.mq.findSome? fun m => match m.st with
    | .held c st _ _ => some (2 ^ 8 + c.code * 2 ^ 16 + st)
    | .waiting => none
    | .started => none).getD 0

/-- A core's maxima in the KIND 1 layout of Table 4-4. -/
def Maxima.value (x : Maxima) : Nat := 2 ^ 30 + x.n * 2 ^ 20 + x.m * 2 ^ 13 + x.kb * 2 ^ 5

/-- MSTAT (R212, Table 7-10). -/
def opMstat (s : Fin 32) (n : Fin 8) : SlotOp where
  dsts := [.s s]
  illegal _ := decide (5 ≤ n.val)
  body e a :=
    let x := e.k.eng
    e.ctl a (.s s)
      (match n.val with
        | 0 => x.mq.length
        | 1 => x.retired.toNat
        | 2 => x.heldFail
        | 3 => x.runTok .m
        | _ => (a.st.maxima e.d e.c.val).value)

/-- The accumulator index of element `i` of a MACC form (R205). -/
def maccIndex (row : Fin 64) (col : Fin 16) (i : Nat) : Nat := 512 * row.val + 32 * col.val + i

/-- 64 consecutive accumulator elements as a vector register. -/
def accRow (acc : List (Nat × BitVec 32)) (row : Fin 64) (col : Fin 16) : Nat :=
  packElems 32 ((List.range 64).map fun i => (sget acc (maccIndex row col i)).toNat)

/-- MACRD (R206): it waits until every command of earlier bundles has left the queue. -/
def opMacrd (vd : Fin 32) (row : Fin 64) (col : Fin 16) : SlotOp where
  dsts := [.v vd]
  body e a :=
    let a := if e.k.eng.mq.isEmpty then a else a.wait e 6 matrixQueue (agentEng .m)
    .ok (a.push { e.pend 3 (.v vd) (accRow e.k.eng.acc row col) (some 4) with en := 2 ^ 256 - 1 })

def MState.isStarted : MState → Bool
  | .started => true
  | .waiting => false
  | .held _ _ _ _ => false

/-- MRESET (R213): every waiting command goes, held ones among them, and the mask is disarmed. -/
def opMreset : SlotOp where
  body e a :=
    let a := if e.k.eng.mq.any fun m => m.st.isStarted then a.wait e 6 matrixQueue (agentEng .m) else a
    .ok { a with eng := { a.eng with mq := [], mask := 0 } }

/-! Instructions: each issues alone in its bundle. -/

def execMnop (s : State) : Host.Outcome State Fault Refusal := issueOne ⟨.always, .m .mnop⟩ opMnop s
def execMcbset (g : Guard) (sd : Fin 32) (sel : Fin 8) (s : State) : Host.Outcome State Fault Refusal := issueOne ⟨g, .m (.mcbset sd sel)⟩ (opMcbset sd sel) s
def execMlut (g : Guard) (ht hw : Fin 16) (row : Fin 64) (col : Fin 16) (sh : Fin 4) (clr : Bool) (s : State) : Host.Outcome State Fault Refusal := issueOne ⟨g, .m (.mlut ht hw row col sh clr)⟩ (opMlut ht hw row col sh clr) s
def execMlutg (g : Guard) (ht hw : Fin 16) (row : Fin 64) (col : Fin 16) (sh : Fin 4) (clr : Bool) (hp hs : Fin 16) (s : State) : Host.Outcome State Fault Refusal := issueOne ⟨g, .m (.mlutg ht hw row col sh clr hp hs)⟩ (opMlutg ht hw row col sh clr hp hs) s
def execMluts (g : Guard) (ht hw : Fin 16) (row : Fin 64) (col : Fin 16) (sh : Fin 4) (clr : Bool) (s : State) : Host.Outcome State Fault Refusal := issueOne ⟨g, .m (.mluts ht hw row col sh clr)⟩ (opMluts ht hw row col sh clr) s
def execMlutsg (g : Guard) (ht hw : Fin 16) (row : Fin 64) (col : Fin 16) (sh : Fin 4) (clr : Bool) (hp hs : Fin 16) (s : State) : Host.Outcome State Fault Refusal := issueOne ⟨g, .m (.mlutsg ht hw row col sh clr hp hs)⟩ (opMlutsg ht hw row col sh clr hp hs) s
def execMaclr (g : Guard) (row : Fin 64) (col : Fin 16) (sh : Fin 4) (s : State) : Host.Outcome State Fault Refusal := issueOne ⟨g, .m (.maclr row col sh)⟩ (opMaclr row col sh) s
def execMmask (g : Guard) (ht : Fin 16) (s : State) : Host.Outcome State Fault Refusal := issueOne ⟨g, .m (.mmask ht)⟩ (opMmask ht) s
def execMstat (g : Guard) (sd : Fin 32) (n : Fin 8) (s : State) : Host.Outcome State Fault Refusal := issueOne ⟨g, .m (.mstat sd n)⟩ (opMstat sd n) s
def execMcbget (g : Guard) (sd : Fin 32) (sel : Fin 8) (s : State) : Host.Outcome State Fault Refusal := issueOne ⟨g, .m (.mcbget sd sel)⟩ (opMcbget sd sel) s
def execMacrd (g : Guard) (vd : Fin 32) (row : Fin 64) (col : Fin 16) (s : State) : Host.Outcome State Fault Refusal := issueOne ⟨g, .m (.macrd vd row col)⟩ (opMacrd vd row col) s
def execMacwr (g : Guard) (vd : Fin 32) (row : Fin 64) (col : Fin 16) (s : State) : Host.Outcome State Fault Refusal := issueOne ⟨g, .m (.macwr vd row col)⟩ (opMacwr vd row col) s
def execMbias (g : Guard) (vd : Fin 32) (row : Fin 64) (col : Fin 16) (s : State) : Host.Outcome State Fault Refusal := issueOne ⟨g, .m (.mbias vd row col)⟩ (opMbias vd row col) s
def execMreset (g : Guard) (s : State) : Host.Outcome State Fault Refusal := issueOne ⟨g, .m .mreset⟩ opMreset s
def execMlutk (g : Guard) (ht hw : Fin 16) (row : Fin 64) (col : Fin 16) (sh : Fin 4) (clr : Bool) (s : State) : Host.Outcome State Fault Refusal := issueOne ⟨g, .m (.mlutk ht hw row col sh clr)⟩ (opMlutk ht hw row col sh clr) s
def execMlutgk (g : Guard) (ht hw : Fin 16) (row : Fin 64) (col : Fin 16) (sh : Fin 4) (clr : Bool) (hp hs : Fin 16) (s : State) : Host.Outcome State Fault Refusal := issueOne ⟨g, .m (.mlutgk ht hw row col sh clr hp hs)⟩ (opMlutgk ht hw row col sh clr hp hs) s

end Sys2Proof.Machine
end

