-- ==== Sys2Proof/Machine/Lut.lean ====
section
/-! DEFINITION. The LUT engine: taking tiles, checks, lookups, rescale, mask and retirement of matrix commands (03_numbers.md R90 to R95;
06_lut_engine.md R173 to R189; 07_matrix_ops.md R193 to R211). -/

namespace Sys2Proof.Machine

open Sys2Proof

/-- The tile at a ring's head, as a command takes it. Of a table tile that an earlier command kept, the engine may still hold bytes that a store
has changed since (07_matrix_ops.md R203; 06_lut_engine.md R183; DESIGN CHOICE, log 40: free per byte). -/
def Core.headTile (k : Core) (h : Fin 16) : Tile :=
  let g := k.rings[h]
  let at0 := g.slotAddr g.h
  let t : Tile := match k.eng.kept with
    | some x =>
      if x.tile.ring = h ∧ x.tile.entry = g.h ∧ x.gen = g.gen then
        { x.tile with fixed := (List.range g.slotBytes).foldl (fun f i => if x.tile.fixed.testBit i && !Config.tileByteNew (k.eng.draws + i) then f + 2 ^ i else f) 0 }
      else ⟨h, g.h, at0, 0, 0⟩
    | none => ⟨h, g.h, at0, 0, 0⟩
  t.now k.spad g.slotBytes

/-- The rings whose heads a command takes, and those it pops at retirement (R199 to R201, R209). -/
def MatCmd.takes (m : MatCmd) : List (Fin 16) :=
  match lutForm m.op with
  | some f => f.rings
  | none => match m.op with | .mmask ht => [ht] | _ => []

def MatCmd.pops (m : MatCmd) : List (Fin 16) :=
  match lutForm m.op with
  | some f => if f.keep then f.rings.filter fun h => h != f.ht else f.rings
  | none => m.takes

/-- A named ring has been initialised anew since issue (R196). -/
def Core.matStopped (k : Core) (m : MatCmd) : Bool := m.stopped k.rings

/-- The pop a retirement makes of a ring would not pass C in a window ring (R222), and its head has been pushed (R196). -/
def Core.headReady (k : Core) (m : MatCmd) (h : Fin 16) : Bool :=
  let g := k.rings[h]
  g.init && g.t != g.h && (!(m.pops.contains h) || !g.win || decide ((g.c - g.h).toNat ≥ 1))

/-- An acquire of an earlier bundle has yet to be performed: commands of later bundles come after it (04_control_scalar.md R128;
11_ordering.md R311). -/
def Core.acquireBefore (k : Core) (bseq : Nat) : Bool := k.memq.any fun e => e.kind.isAcquire && decide (e.bseq < bseq)

/-- Whether a command may begin: first in its queue, no fence (R226), no acquire and no YACCP of an earlier bundle before it (R242), its tiles
at the heads of their rings and none of them under a bank lock (R240). -/
def Core.matReady (k : Core) (m : MatCmd) : Bool :=
  let accp (y : CopyCmd) : Bool := match y.op with | .yaccp _ _ _ _ => decide (y.bseq < m.bseq) | _ => false
  let locked (h : Fin 16) : Bool := let g := k.rings[h]
    k.eng.locks.any fun l => decide (l.lo < g.slotAddr g.h + g.slotBytes) && decide (g.slotAddr g.h ≤ l.hi)
  !(k.fenced .m m.bseq) && !(k.acquireBefore m.bseq) && !(k.eng.yq.toList.any fun q => q.any accp) && m.takes.all (k.headReady m) &&
    !(m.takes.any locked)

/-- The head of the matrix queue leaves it as retired, with its token (R102, R212). -/
def Core.dropMat (k : Core) (tok : Nat) : Core := { k with eng := k.eng.dropMat tok }

/-- Tables 6-8 and 7-5 for a lookup. -/
def Core.lutCheck (k : Core) (m : MatCmd) (f : LutForm) : Option (Cause × Nat) :=
  (m.job f).check m.cbGen fun h => (k.rings[h]).slotBytes

/-- The mask block of a tile, its unused part zero. -/
def maskBlock (t : Nat) : Nat :=
  let b := t >>> (8 * tPayloadOff t)
  b % 2 ^ (8 * (16 + 8 * Nat.min (tileField b 7 1) 64))

/-- Table 7-7 for MMASK. -/
def maskCheck (t slot : Nat) : Option (Cause × Nat) :=
  let off := tPayloadOff t
  let mode := tileField t off 1
  let nt := tileField t (off + 7) 1
  if tKind t ≠ 8 then some (.engine, 0x01)
  else if tCode t ≠ 0 ∨ tileField t 2 14 ≠ 0 ∨ tileField t 16 4 ≠ 0 ∨ tileField t 28 4 ≠ 0 ∨ tileField t (off + 1) 1 ≠ 0 ∨
      tileField t (off + 8) 8 ≠ 0 then some (.engine, 0x02)
  else if outside off 16 slot ∨ (mode = 1 ∧ outside off (16 + 8 * Nat.min nt 64) slot) then some (.engine, 0x06)
  else if mode > 1 ∨ (mode = 1 ∧ (nt = 0 ∨ nt > 64 ∨ tileField t (off + 2) 2 > 512 ∨ tileField t (off + 2) 2 > tileField t (off + 4) 2 ∨
      tileField t (off + 6) 1 + nt > 64 ∨ tileField t (off + 4) 2 + nt > 512)) then some (.engine, 0x09)
  else none

/-- A command takes its tiles and runs its checks: it starts, or is held at the first that fails (R181, R193). -/
def Core.takeTiles (k : Core) (m : MatCmd) (check : MatCmd → Option (Cause × Nat)) : Core :=
  let m := { m with tiles := m.takes.map k.headTile, mask := k.eng.mask }
  let st := match check m with
    | none => .started
    | some (c, n) =>
      let gen := match lutForm m.op with | some f => tCbGen (m.job f).t | none => 0
      .held c n gen false
  { k with eng := { k.eng with mq := { m with st := st } :: k.eng.mq.drop 1, draws := k.eng.draws + (if k.eng.kept.isSome then 2 ^ 20 else 0) } }

/-- The start of a lookup or of MMASK at the head of the queue; a stopped command leaves (R196). -/
def Core.startMat (k : Core) (which : MatCmd → Bool) : Core :=
  match k.eng.mq with
  | [] => k
  | m :: _ =>
    if m.st ≠ .waiting ∨ !which m then k
    else if k.matStopped m then k.dropMat 1
    else if !k.matReady m then k
    else k.takeTiles m fun m =>
      match lutForm m.op with
      | some f => k.lutCheck m f
      | none =>
        match m.tiles with
        | t :: _ => maskCheck t.val (k.rings[t.ring]).slotBytes
        | [] => none

def MatCmd.isLookup (m : MatCmd) : Bool := (lutForm m.op).isSome
def MatCmd.isMask (m : MatCmd) : Bool := match m.op with | .mmask _ => true | _ => false

/-- A tile is popped if it is still at its ring's head: the thread may have popped it already, and another tile stands there (R221, R222;
07_matrix_ops.md R215). -/
def Core.popTile (k : Core) (t : Tile) : Core :=
  let g := k.rings[t.ring]
  if g.h = t.entry then { k with rings := k.rings.set t.ring { g with h := g.h + 1 } } else k

/-- The pops of a command at its retirement. -/
def Core.popTiles (k : Core) (m : MatCmd) : Core := (m.tiles.filter fun t => m.pops.contains t.ring).foldl Core.popTile k

/-- The table tile that a retired lookup leaves in the engine's table buffer (07_matrix_ops.md R203). -/
def Core.keepTile (k : Core) (m : MatCmd) (f : LutForm) : Option Kept :=
  if f.keep then m.tiles.head?.map fun t => ⟨t, (k.rings[t.ring]).gen⟩ else k.eng.kept.filter fun x => x.tile.ring != f.ht

/-- A lookup retires: every effect in one step (R193, R200). -/
def Core.finishLookup (k : Core) (m : MatCmd) (f : LutForm) : Core :=
  let l := k.lutElements m f
  let acc := l.foldl (fun acc e => sset acc e.idx (BitVec.ofNat 32 e.val)) k.eng.acc
  let k := { k with eng := { k.eng with acc := acc, kept := k.keepTile m f } }
  ((k.popTiles m).postEvents 5 m.handler m.baddr m.iss (lutRecords l)).dropMat 0

/-- Retirement of a started lookup at the head of the queue. -/
def Core.retireLookup (k : Core) : Core :=
  match k.eng.mq with
  | [] => k
  | m :: _ =>
    match lutForm m.op, m.st with
    | some f, .started => if k.matStopped m then k.dropMat 1 else k.finishLookup m f
    | _, _ => k

/-- Retirement of MMASK (R209). -/
def Core.retireMask (k : Core) : Core :=
  match k.eng.mq with
  | [] => k
  | m :: _ =>
    if !m.isMask ∨ !m.st.isStarted then k
    else if k.matStopped m then k.dropMat 1
    else
      let b := maskBlock ((m.tiles.head?.map (·.val)).getD 0)
      ({ k with eng := { k.eng with mask := if tileField b 0 1 = 1 then b else 0 } }.popTiles m).dropMat 0

/-- Retirement of the commands that take no tile: MACLR, MACWR, MBIAS (R205 to R208). -/
def Core.retireAcc (k : Core) (which : MatrixOp → Bool) : Core :=
  match k.eng.mq with
  | [] => k
  | m :: _ =>
    if !which m.op ∨ !k.matReady m then k
    else
      match m.op with
      | .maclr row col _ =>
        let inside (i : Nat) : Bool := decide (row.val ≤ i / 512) && decide (i / 512 < row.val + m.gm) &&
          decide (32 * col.val ≤ i % 512) && decide (i % 512 < 32 * col.val + m.gn)
        { k with eng := { k.eng with acc := k.eng.acc.filter fun x => !inside x.1 } }.dropMat 0
      | .macwr _ row col =>
        let acc := (List.range 64).foldl (fun acc i => sset acc (maccIndex row col i) (BitVec.ofNat 32 (elemAt m.vd 32 i))) k.eng.acc
        { k with eng := { k.eng with acc := acc } }.dropMat 0
      | .mbias _ row col =>
        let sum (i : Nat) : Nat × Option Ev :=
          Fmt.fp32.round .rne ((Fmt.fp32.decode (sget k.eng.acc (maccIndex row col i)).toNat).add (Fmt.fp32.decode (elemAt m.vd 32 i)))
        let acc := (List.range 64).foldl (fun acc i => sset acc (maccIndex row col i) (BitVec.ofNat 32 (sum i).1)) k.eng.acc
        let evs := (List.range 64).filterMap fun i => match (sum i).2 with
          | some .nan => some (i, Ev.nan)
          | some .ovf => some (i, Ev.ovf)
          | _ => none
        ({ k with eng := { k.eng with acc := acc } }.postEvents 5 m.handler m.baddr m.iss (summarize evs)).dropMat 0
      | _ => k

end Sys2Proof.Machine
end

