-- ==== Sys2Proof/Machine/Copy.lean ====
section
/-! DEFINITION. Copy-slot instructions at issue: the command block, its checks, the bank lock (08_core_memory.md R230 to R235, R240 to R251). -/

namespace Sys2Proof.Machine

open Sys2Proof

/-- The copy commands that have a block (Table 8-7). -/
inductive YKind where
  | copy | push | acc | accp | mx4 | sadd | atom | pref | fill | rem | gath | scat | line
  deriving DecidableEq, Repr

/-- A copy instruction with a block: its command, base register, PI, LOCK and SC (R230). -/
structure CopyForm where
  kind : YKind
  ab : Fin 16
  pi : Bool
  lock : Bool
  sc : Scope
  deriving DecidableEq, Repr

def copyForm : CopyOp → Option CopyForm
  | .ycopy ab pi lock sc => some ⟨.copy, ab, pi, lock, sc⟩
  | .ypush ab pi lock sc => some ⟨.push, ab, pi, lock, sc⟩
  | .yacc ab pi lock sc => some ⟨.acc, ab, pi, lock, sc⟩
  | .yaccp ab pi lock sc => some ⟨.accp, ab, pi, lock, sc⟩
  | .ymx4 ab pi lock sc => some ⟨.mx4, ab, pi, lock, sc⟩
  | .ysadd ab pi lock sc => some ⟨.sadd, ab, pi, lock, sc⟩
  | .yatom ab pi lock sc => some ⟨.atom, ab, pi, lock, sc⟩
  | .ypref ab pi lock sc => some ⟨.pref, ab, pi, lock, sc⟩
  | .yfill ab pi lock sc => some ⟨.fill, ab, pi, lock, sc⟩
  | .yrem ab pi lock sc => some ⟨.rem, ab, pi, lock, sc⟩
  | .ygath ab pi lock sc => some ⟨.gath, ab, pi, lock, sc⟩
  | .yscat ab pi lock sc => some ⟨.scat, ab, pi, lock, sc⟩
  | .yline ab pi lock sc => some ⟨.line, ab, pi, lock, sc⟩
  | .ynop => none
  | .ycancel => none
  | .yldv _ _ _ => none

/-- Fields of a command block (Table 8-4). -/
def blkSrc (b : Nat) : Nat := elemAt b 64 0
def blkDst (b : Nat) : Nat := elemAt b 64 1
def blkAux (b : Nat) : Nat := elemAt b 64 2
def blkList (b : Nat) : Nat := blkAux b % 2 ^ 48
def blkNp (b : Nat) : Nat := blkAux b / 2 ^ 48
def blkSStride (b : Nat) : Int := sInt 32 (elemAt b 32 6)
def blkDStride (b : Nat) : Int := sInt 32 (elemAt b 32 7)
def blkCols (b : Nat) : Nat := elemAt b 16 17
def blkERows (b : Nat) : Nat := elemAt b 16 18
def blkECols (b : Nat) : Nat := elemAt b 16 19
def blkSDesc (b : Nat) : Nat := elemAt b 32 10
def blkDDesc (b : Nat) : Nat := elemAt b 32 11
def blkFlags (b : Nat) : Nat := elemAt b 16 24
def blkScale (b : Nat) : Nat := elemAt b 8 50
def blkHandle (b : Nat) : Nat := elemAt b 16 26
def blkCpl (b : Nat) : Nat := elemAt b 32 14
def blkCplVal (b : Nat) : Nat := elemAt b 32 15
def blkCplEn (b : Nat) : Bool := (blkCpl b).testBit 31
def blkCplOff (b : Nat) : Nat := bits (blkCpl b) 18 0

/-- Fields of FLAGS (Table 8-6). -/
def blkTrans (b : Nat) : Bool := (blkFlags b).testBit 0
def blkScaled (b : Nat) : Bool := (blkFlags b).testBit 1
def blkRm (b : Nat) : Nat := bits (blkFlags b) 3 2
def blkSSpace (b : Nat) : Nat := bits (blkFlags b) 5 4
def blkDSpace (b : Nat) : Nat := bits (blkFlags b) 7 6
def blkSat (b : Nat) : Bool := (blkFlags b).testBit 8
def blkTScale (b : Nat) : Bool := (blkFlags b).testBit 9
def blkAuxSp (b : Nat) : Nat := bits (blkFlags b) 10 10
def blkRet (b : Nat) : Bool := (blkFlags b).testBit 11
def blkMode (b : Nat) : Bool := (blkFlags b).testBit 12

/-- The type an SDESC or DDESC gives, none where it is invalid (R231, 03_numbers.md R69). -/
def descTy (d : Nat) : Option ETy :=
  if d / 2 ^ 21 ≠ 0 then none
  else match d % 16 with
    | 0 => some (.int true 1)
    | 1 => some (.int true 2)
    | 2 => some (.int true 4)
    | 3 => some (.int false 1)
    | 4 => some (.int false 2)
    | 5 => some (.int false 4)
    | 6 => some (.flt .bf16 2)
    | 7 => some (.flt .fp32 4)
    | 8 => (Fmt.ofDesc (BitVec.ofNat 17 (bits d 20 4))).map ETy.ofFmt
    | _ => none

/-- The byte ranges of the block that a command does not use, reserved ones among them (Table 8-7). -/
def YKind.unused : YKind → List (Nat × Nat)
  | .push => [(0, 32), (34, 14), (50, 2), (54, 2)]
  | .mx4 => [(36, 12), (50, 2), (54, 2)]
  | .atom => [(0, 8), (24, 24), (50, 6)]
  | .pref => [(8, 8), (24, 24), (50, 6)]
  | .fill => [(16, 12), (36, 8), (50, 2), (54, 2)]
  | .rem => [(16, 32), (50, 6)]
  | .line => [(16, 16), (34, 14), (50, 6)]
  | .copy | .acc | .accp | .sadd | .gath | .scat => [(51, 1), (54, 2)]

/-- The FLAGS bits that a command uses (Table 8-7, R244). -/
def YKind.flagMask : YKind → Nat
  | .copy => 0x7FF | .acc => 0x7FF | .accp => 0x7FF
  | .sadd => 0x5FE | .gath => 0x5FE | .scat => 0x5FE
  | .push => 0xC0 | .mx4 => 0x4F0 | .atom => 0xCC0 | .pref => 0x400 | .fill => 0xC0 | .rem => 0x10C0 | .line => 0xF0

/-- Commands that can write into a ring slot (R221). -/
def YKind.toRing : YKind → Bool
  | .copy | .acc | .mx4 | .sadd | .fill | .gath | .scat => true
  | .push | .accp | .atom | .pref | .rem | .line => false

/-- The ring a block names, if any: every YPUSH, and DSPACE 3 of the commands that can produce. -/
def YKind.usesRing (k : YKind) (b : Nat) : Bool := k == .push || (blkDSpace b == 3 && k.toRing)

/-- Shape of a converting copy: element types, destination rows, elements per row, elements per chunk, chunks per row (R235, R236). -/
structure Conv where
  fs : ETy
  ft : ETy
  nr : Nat
  dlen : Nat
  per : Nat
  prow : Nat
  deriving DecidableEq, Repr

/-- Bytes of `n` elements of a type, the last byte whole (R71). -/
def ETy.bytesOf (t : ETy) (n : Nat) : Nat := (n * t.bits + 7) / 8

/-- The shape of a converting copy's block; none where a type is invalid. -/
def convOf (k : YKind) (b : Nat) : Option Conv :=
  match descTy (blkDDesc b), descTy (if k = .fill then blkDDesc b else blkSDesc b) with
  | some ft, some fs =>
    let nr := if k = .gath ∨ k = .scat then blkNp b else if blkTrans b then blkCols b else blkRows b
    let dlen := if blkTrans b then blkRows b else blkCols b
    let per := 16384 / ft.bits
    some ⟨fs, ft, nr, dlen, per, ceilDiv dlen per⟩
  | _, _ => none

/-- What an engine knows of a well-formed command: its chunks, whether it writes the local scratchpad (R240), and the lowest and
highest byte it writes there, counted from the slot for a ring. -/
structure Plan where
  n : Nat
  loc : Bool
  ext : Option (Int × Int)
  deriving DecidableEq, Repr

/-- The bytes of `n` rows of `len` bytes at a stride. -/
def rowsExt (base : Nat) (n : Nat) (stride : Int) (len : Nat) : Option (Int × Int) :=
  if n = 0 ∨ len = 0 then none
  else
    let a : Int := base
    let z : Int := a + ((n : Int) - 1) * stride
    some (if z < a then (z, a + len - 1) else (a, z + len - 1))

/-- An accumulator region that does not lie within 64 × 512, or has other bits set (R242). -/
def accBad (v rows cols : Nat) : Bool :=
  v / 2 ^ 25 != 0 || bits v 15 6 != 0 || decide (bits v 5 0 + rows > 64) || decide (bits v 24 16 + cols > 512)

/-- Checks of the commands that convert (R235, R242, R244, R247, R248). -/
def planConv (k : YKind) (b : Nat) : Option Plan :=
  match convOf k b with
  | none => none
  | some c =>
    let d := blkDst b
    let listed := k == .sadd || k == .gath || k == .scat
    if blkTrans b && (c.fs.isNibble || c.ft.isNibble) then none
    else if !listed && (if blkTScale b then blkNp b != 0 else blkAux b != 0 || blkAuxSp b != 0) then none
    else if k = .fill ∧ blkSrc b / 2 ^ c.ft.codeBits ≠ 0 then none
    else if (k = .gath ∨ k = .scat) ∧ blkRows b ≠ 0 then none
    else if k = .acc ∧ (blkSSpace b ≠ 0 ∨ c.fs ≠ .flt .fp32 4 ∨ accBad (blkSrc b) (blkRows b) (blkCols b)) then none
    else if k = .accp ∧ (blkDSpace b ≠ 0 ∨ c.ft ≠ .flt .fp32 4 ∨ accBad d c.nr c.dlen) then none
    else
      let loc := blkDSpace b == 1 || blkDSpace b == 3
      let rows := if k = .scat then (if c.nr = 0 then 0 else blkERows b) else c.nr
      some ⟨c.nr * c.prow, loc, if loc then rowsExt d rows (blkDStride b) (c.ft.bytesOf c.dlen) else none⟩

/-- Union of two byte ranges. -/
def joinExt (a b : Option (Int × Int)) : Option (Int × Int) :=
  match a, b with
  | some x, some y => some (if x.1 < y.1 then x.1 else y.1, if x.2 < y.2 then y.2 else x.2)
  | some x, none => some x
  | none, y => y

/-- Checks of each command (R241 to R249); none ends it with status 0x03. YPUSH and YREM, for which R236 defines no chunk, count one chunk when
they complete (R237; DESIGN CHOICE, log 77). -/
def planKind (k : YKind) (b : Nat) : Option Plan :=
  let d := blkDst b
  let sp := blkDSpace b
  match k with
  | .copy | .acc | .accp | .sadd | .fill | .gath | .scat => planConv k b
  | .push => if sp ≠ 3 then none else some ⟨1, false, none⟩
  | .mx4 =>
    let cols := blkCols b
    if cols % 32 ≠ 0 ∨ cols < 32 ∨ cols > 8192 ∨ blkNp b ≠ 0 then none
    else
      let loc := sp == 1 || sp == 3
      let codes := rowsExt d (blkRows b) (blkDStride b) (cols / 2)
      let scales : Option (Int × Int) :=
        if blkRows b = 0 then none
        else
          let lo := (d : Int) + blkRows b * blkDStride b
          some (lo, lo + blkRows b * (cols / 32 : Nat) - 1)
      some ⟨blkRows b, loc, if loc then joinExt codes scales else none⟩
  | .atom =>
    if sp = 3 ∨ (!blkRet b ∧ d ≠ 0) then none
    else some ⟨ceilDiv (blkNp b) 8, blkRet b, if blkRet b then rowsExt d (blkNp b) 8 8 else none⟩
  | .pref => some ⟨ceilDiv (blkNp b) 64, false, none⟩
  | .rem =>
    if (sp ≠ 1 ∧ sp ≠ 2) ∨ d % 4 ≠ 0 then none
    else some ⟨1, sp == 1, if sp = 1 then some (d, (d : Int) + 3) else none⟩
  | .line =>
    if !((sp == 0 && blkSSpace b == 1) || (sp == 1 && blkSSpace b == 0)) ∨ blkSrc b % 64 ≠ 0 ∨ d % 64 ≠ 0 then none
    else some ⟨blkRows b, sp == 1, if sp = 1 then rowsExt d (blkRows b) 64 64 else none⟩

/-- The start checks of a command (R231, R234, R240); none ends it with status 0x03. Bits [30:19] of CPL are among the reserved fields (DEDUCED,
log 86). -/
def planOf (f : CopyForm) (b : Nat) : Option Plan :=
  let zero (x : Nat × Nat) : Bool := b >>> (8 * x.1) % 2 ^ (8 * x.2) == 0
  if !(f.kind.unused.all zero) ∨ blkFlags b &&& (0xFFFF ^^^ f.kind.flagMask) ≠ 0 ∨ bits (blkCpl b) 30 19 ≠ 0 ∨ blkSSpace b = 3 ∨
      blkRm b = 3 ∨ (blkDSpace b = 3 ∧ !f.kind.usesRing b) ∨ (blkDSpace b ≠ 3 ∧ blkHandle b ≠ 0) then none
  else
    match planKind f.kind b with
    | none => none
    | some p => if f.lock && !p.loc then none else some p

/-- The bytes a command with LOCK locks (R240); `base` is where its destination space begins. -/
def lockOf (f : CopyForm) (b base : Nat) : Option (Nat × Nat) :=
  if !f.lock then none
  else match planOf f b with
    | some p => p.ext.map fun r => ((r.1 + (base : Int)).toNat, (r.2 + (base : Int)).toNat)
    | none => none

def copyEng (u : Bool) : Eng := if u then .y1 else .y0
def copyIdx (u : Bool) : Fin 2 := if u then 1 else 0

/-- A full copy queue waits (R230). -/
def Acc.copyRoom (a : Acc) (e : Env) (u : Bool) : Acc :=
  if (a.eng.yq[copyIdx u]).length ≥ 32 then a.wait e 2 (engIdx (copyEng u)).val (agentEng (copyEng u)) else a

/-- Pushes a command to its engine's queue. -/
def Env.pushCopy (e : Env) (a : Acc) (u : Bool) (op : CopyOp) (blk : Nat) (ring : Option (Fin 16 × BitVec 12 × BitVec 32))
    (lock : Option (Nat × Nat)) (mats : List Nat) : Acc :=
  let y : CopyCmd := {
    id := a.eng.nextId, g := e.g, op := op, blk := blk, baddr := e.baddr, iss := e.iss, bseq := e.k.bseq, handler := e.k.handler,
    ring := ring, st := .waiting, chunk := 0, lock := lock, win := a.eng.win[engIdx (copyEng u)], cancel := false, halted := false,
    scale := 0, evs := [], page := none, mats := mats, snap := [], rng := none }
  let q := a.eng.yq[copyIdx u]
  { a with eng := { a.eng with yq := a.eng.yq.set (copyIdx u) (q ++ [y]), nextId := a.eng.nextId + 1 } }

/-- Checks 3 to 5 of Table 8-5 on a block. A record that its offset field names ends inside the scratchpad where it is aligned; bits above the
field are reserved, and end the command at its start instead (R234; DEDUCED, log 86). -/
def blockFault (rings : Vector Ring 16) (k : YKind) (b : Nat) : Option SlotFault :=
  let h : Fin 16 := Fin.ofNat 16 (blkHandle b)
  let g := rings[h]
  if blkCplEn b && blkCplOff b % 8 != 0 then some (dataFault 0 (BitVec.ofNat 64 (blkCplOff b)))
  else if !k.usesRing b then none
  else if !g.init then some { cause := .ringMisuse }
  else if blkHandle b / 16 ≠ g.gen.toNat then
    some { cause := .staleHandle, info := blkHandle b + 2 ^ 16 * ringHandle g h }
  else none

/-- A copy instruction with a block (R230, R232); one whose block lies under a bank lock waits before it is read (R240). The entry of a producer is assigned now (R221); YPUSH records its ring's generation
(R227); a YACCP waits for the matrix commands of earlier bundles (R242). -/
def opYcmd (u : Bool) (op : CopyOp) (f : CopyForm) : SlotOp where
  srcs := [.a f.ab]
  body e a :=
    let ea := e.k.readA f.ab
    if ea.toNat + 64 > 0x80000 then .fault (dataFault 0 ea) a
    else if ea.toNat % 64 ≠ 0 then .fault (alignFault ea) a
    else if (e.k.eng.lockOn (rangeOf ea.toNat 64)).isSome then .ok (a.locked e (rangeOf ea.toNat 64))
    else
      let b := readLE e.k.spad ea.toNat 64
      match blockFault a.rings f.kind b with
      | some x => .fault x a
      | none =>
        let a := (a.behindAcquire e).copyRoom e u
        let a := e.postInc a f.pi f.ab 64 none
        let mats := if f.kind = .accp then (e.k.eng.mq.map (·.id)) else []
        if f.kind.usesRing b then
          let h : Fin 16 := Fin.ofNat 16 (blkHandle b)
          let g := a.rings[h]
          let a' := if f.kind = .push then a else a.setRing h { g with a := g.a + 1 }
          .ok (e.pushCopy a' u op b (some (h, g.gen, g.a)) (lockOf f b (g.slotAddr g.a)) mats)
        else .ok (e.pushCopy a u op b none (lockOf f b 0) mats)

def opYnop : SlotOp := opNothing

def opYcopy (u : Bool) (ab : Fin 16) (pi lock : Bool) (sc : Scope) : SlotOp := opYcmd u (.ycopy ab pi lock sc) ⟨.copy, ab, pi, lock, sc⟩
def opYpush (u : Bool) (ab : Fin 16) (pi lock : Bool) (sc : Scope) : SlotOp := opYcmd u (.ypush ab pi lock sc) ⟨.push, ab, pi, lock, sc⟩
def opYacc (u : Bool) (ab : Fin 16) (pi lock : Bool) (sc : Scope) : SlotOp := opYcmd u (.yacc ab pi lock sc) ⟨.acc, ab, pi, lock, sc⟩
def opYaccp (u : Bool) (ab : Fin 16) (pi lock : Bool) (sc : Scope) : SlotOp := opYcmd u (.yaccp ab pi lock sc) ⟨.accp, ab, pi, lock, sc⟩
def opYmx4 (u : Bool) (ab : Fin 16) (pi lock : Bool) (sc : Scope) : SlotOp := opYcmd u (.ymx4 ab pi lock sc) ⟨.mx4, ab, pi, lock, sc⟩
def opYsadd (u : Bool) (ab : Fin 16) (pi lock : Bool) (sc : Scope) : SlotOp := opYcmd u (.ysadd ab pi lock sc) ⟨.sadd, ab, pi, lock, sc⟩
def opYatom (u : Bool) (ab : Fin 16) (pi lock : Bool) (sc : Scope) : SlotOp := opYcmd u (.yatom ab pi lock sc) ⟨.atom, ab, pi, lock, sc⟩
def opYpref (u : Bool) (ab : Fin 16) (pi lock : Bool) (sc : Scope) : SlotOp := opYcmd u (.ypref ab pi lock sc) ⟨.pref, ab, pi, lock, sc⟩
def opYfill (u : Bool) (ab : Fin 16) (pi lock : Bool) (sc : Scope) : SlotOp := opYcmd u (.yfill ab pi lock sc) ⟨.fill, ab, pi, lock, sc⟩
def opYrem (u : Bool) (ab : Fin 16) (pi lock : Bool) (sc : Scope) : SlotOp := opYcmd u (.yrem ab pi lock sc) ⟨.rem, ab, pi, lock, sc⟩
def opYgath (u : Bool) (ab : Fin 16) (pi lock : Bool) (sc : Scope) : SlotOp := opYcmd u (.ygath ab pi lock sc) ⟨.gath, ab, pi, lock, sc⟩
def opYscat (u : Bool) (ab : Fin 16) (pi lock : Bool) (sc : Scope) : SlotOp := opYcmd u (.yscat ab pi lock sc) ⟨.scat, ab, pi, lock, sc⟩
def opYline (u : Bool) (ab : Fin 16) (pi lock : Bool) (sc : Scope) : SlotOp := opYcmd u (.yline ab pi lock sc) ⟨.line, ab, pi, lock, sc⟩

/-- YCANCEL marks, at its issue, what earlier bundles pushed to its engine and has not completed (R250). -/
def opYcancel (u : Bool) : SlotOp where
  body e a :=
    let a := a.copyRoom e u
    let mark (y : CopyCmd) : CopyCmd := if y.bseq < e.k.bseq then { y with cancel := true } else y
    let i := copyIdx u
    .ok (e.pushCopy { a with eng := { a.eng with yq := a.eng.yq.set i ((a.eng.yq[i]).map mark) } } u .ycancel 0 none none [])

/-- YLDV (R251). -/
def opYldv (u : Bool) (ab : Fin 16) (pi : Bool) (vd : Fin 32) : SlotOp where
  srcs := [.a ab]
  dsts := [.v vd]
  body e a :=
    let ea := e.k.readA ab
    if ea.toNat + 256 > 0x80000 then .fault (dataFault 0 ea) a
    else if ea.toNat % 4 ≠ 0 then .fault (alignFault ea) a
    else
      let a := (a.locked e (rangeOf ea.toNat 256)).behindAcquire e
      let a := e.postInc a pi ab 64 none
      .ok (a.push { e.pend 4 (.v vd) (readLE e.k.spad ea.toNat 256) (some (if u then 6 else 5)) with en := 2 ^ 256 - 1 })

/-! Instructions: each issues alone in its bundle. -/

def execYnop (u : Bool) (s : State) : Host.Outcome State Fault Refusal := issueOne ⟨.always, .y u .ynop⟩ opYnop s
def execYcopy (g : Guard) (u : Bool) (ab : Fin 16) (pi lock : Bool) (sc : Scope) (s : State) : Host.Outcome State Fault Refusal := issueOne ⟨g, .y u (.ycopy ab pi lock sc)⟩ (opYcopy u ab pi lock sc) s
def execYpush (g : Guard) (u : Bool) (ab : Fin 16) (pi lock : Bool) (sc : Scope) (s : State) : Host.Outcome State Fault Refusal := issueOne ⟨g, .y u (.ypush ab pi lock sc)⟩ (opYpush u ab pi lock sc) s
def execYacc (g : Guard) (u : Bool) (ab : Fin 16) (pi lock : Bool) (sc : Scope) (s : State) : Host.Outcome State Fault Refusal := issueOne ⟨g, .y u (.yacc ab pi lock sc)⟩ (opYacc u ab pi lock sc) s
def execYaccp (g : Guard) (u : Bool) (ab : Fin 16) (pi lock : Bool) (sc : Scope) (s : State) : Host.Outcome State Fault Refusal := issueOne ⟨g, .y u (.yaccp ab pi lock sc)⟩ (opYaccp u ab pi lock sc) s
def execYmx4 (g : Guard) (u : Bool) (ab : Fin 16) (pi lock : Bool) (sc : Scope) (s : State) : Host.Outcome State Fault Refusal := issueOne ⟨g, .y u (.ymx4 ab pi lock sc)⟩ (opYmx4 u ab pi lock sc) s
def execYsadd (g : Guard) (u : Bool) (ab : Fin 16) (pi lock : Bool) (sc : Scope) (s : State) : Host.Outcome State Fault Refusal := issueOne ⟨g, .y u (.ysadd ab pi lock sc)⟩ (opYsadd u ab pi lock sc) s
def execYatom (g : Guard) (u : Bool) (ab : Fin 16) (pi lock : Bool) (sc : Scope) (s : State) : Host.Outcome State Fault Refusal := issueOne ⟨g, .y u (.yatom ab pi lock sc)⟩ (opYatom u ab pi lock sc) s
def execYpref (g : Guard) (u : Bool) (ab : Fin 16) (pi lock : Bool) (sc : Scope) (s : State) : Host.Outcome State Fault Refusal := issueOne ⟨g, .y u (.ypref ab pi lock sc)⟩ (opYpref u ab pi lock sc) s
def execYfill (g : Guard) (u : Bool) (ab : Fin 16) (pi lock : Bool) (sc : Scope) (s : State) : Host.Outcome State Fault Refusal := issueOne ⟨g, .y u (.yfill ab pi lock sc)⟩ (opYfill u ab pi lock sc) s
def execYrem (g : Guard) (u : Bool) (ab : Fin 16) (pi lock : Bool) (sc : Scope) (s : State) : Host.Outcome State Fault Refusal := issueOne ⟨g, .y u (.yrem ab pi lock sc)⟩ (opYrem u ab pi lock sc) s
def execYgath (g : Guard) (u : Bool) (ab : Fin 16) (pi lock : Bool) (sc : Scope) (s : State) : Host.Outcome State Fault Refusal := issueOne ⟨g, .y u (.ygath ab pi lock sc)⟩ (opYgath u ab pi lock sc) s
def execYscat (g : Guard) (u : Bool) (ab : Fin 16) (pi lock : Bool) (sc : Scope) (s : State) : Host.Outcome State Fault Refusal := issueOne ⟨g, .y u (.yscat ab pi lock sc)⟩ (opYscat u ab pi lock sc) s
def execYline (g : Guard) (u : Bool) (ab : Fin 16) (pi lock : Bool) (sc : Scope) (s : State) : Host.Outcome State Fault Refusal := issueOne ⟨g, .y u (.yline ab pi lock sc)⟩ (opYline u ab pi lock sc) s
def execYcancel (g : Guard) (u : Bool) (s : State) : Host.Outcome State Fault Refusal := issueOne ⟨g, .y u .ycancel⟩ (opYcancel u) s
def execYldv (g : Guard) (u : Bool) (ab : Fin 16) (pi : Bool) (vd : Fin 32) (s : State) : Host.Outcome State Fault Refusal := issueOne ⟨g, .y u (.yldv ab pi vd)⟩ (opYldv u ab pi vd) s

end Sys2Proof.Machine
end

