-- ==== Sys2Proof/Machine/CopyEng.lean ====
section
/-! DEFINITION. The copy engines: chunks, parked writes, completion (08_core_memory.md R229, R233 to R250; 03_numbers.md R74, R75; 11_ordering.md
R316 to R318; 12_die.md R334, R335, R338; 15_fabric.md R408, R412, R415; 17_prog_data.md R423). -/

namespace Sys2Proof.Machine

open Sys2Proof

/-- Why a chunk is not performed: the command ends with a status and refusals to log, a page is absent, or the engine holds. -/
inductive CStop where
  | fail (status : Nat) (refs : List Refused)
  | page (va : W64) (write : Bool)
  | hold
  deriving DecidableEq, Repr

/-- A step of an engine: it stops or gives a value, and the state follows either way. -/
abbrev CM (α : Type) := ExceptT CStop (StateM State) α

def CM.stop {α : Type} (x : CStop) : CM α := throwThe CStop x

def CM.fail {α : Type} (status : Nat) : CM α := CM.stop (.fail status [])

/-- The engine that works: die, core, which of the two, and the command. -/
structure Yc where
  d : Fin 4
  c : Fin 68
  y : Fin 2
  cmd : CopyCmd

/-- The code of a copy engine by its number (04_control_scalar.md R102). -/
def Yc.eng (w : Yc) : Eng := if w.y = 0 then .y0 else .y1

/-- A copy engine as the agent that ends a wait (09_core_traps.md Table 9-10). -/
def Yc.agent (w : Yc) : Source := .engine w.d w.c w.eng

/-- The spaces of SSPACE and DSPACE, with the accumulator for YACCP. -/
inductive Space where
  | glob | loc | rem | ring | accum
  deriving DecidableEq, Repr

def spaceOf (n : Nat) : Space := match n with | 0 => .glob | 1 => .loc | 2 => .rem | _ => .ring

/-- What a translation that fails does to a command (R239; 12_die.md R331, R339; 15_fabric.md R408). -/
def copyStop (va : W64) (write : Bool) : XErr → CStop
  | .refused r => .fail 0x06 [r]
  | .fabRefused l => .fail 0x06 l
  | .fabNoRoute => .fail 0x08 []
  | .fabUnlinked => .fail 0x09 []
  | .logged _ => .fail 0x06 []
  | .late => .hold
  | .reason st =>
    if st = 0x04 ∨ st = 0x0B then .page va write
    else if st = 0x05 then .fail 0x05 []
    else if st = 0x09 then .fail 0x09 []
    else .fail 0x03 []

/-- A global address of a field (R233). -/
def globalVa (base delta : Int) : W64 := BitVec.ofInt 64 (sInt 48 (base.toNat % 2 ^ 48) + delta)

/-- Translates `n` bytes of one line for an engine. -/
def Yc.xlate (w : Yc) (kind : AccKind) (va : W64) (n : Nat) : CM (Nat × Place) := do
  if !canonical va then CM.fail 0x03
  let s ← get
  let r := s.locate (s.who w.d w.c) kind va n
  set r.2
  match r.1 with
  | .ok (x, p) => pure (x.pa, p)
  | .error e => CM.stop (copyStop va kind.isWrite e)

/-- A run of bytes cut at 64-byte lines: address, bytes before it, length. -/
def pieces (a : Nat) : Nat → Nat → Nat → List (Nat × Nat × Nat)
  | 0, _, _ => []
  | fuel + 1, off, n =>
    if n = 0 then []
    else
      let k := Nat.min n (64 - (a + off) % 64)
      (a + off, off, k) :: pieces a fuel (off + k) (n - k)

/-- Whether a byte that a copy engine reads is poisoned where it is read (10_cluster.md R300). -/
def State.copyPoison (s : State) (d : Fin 4) (c : Fin 68) (bseq pa : Nat) : Bool :=
  let k := s.core d c
  let i := pa % 64
  match queuedByte pa bseq k.memq with
  | some _ => false
  | none =>
    match k.l1Find (lineOf pa) with
    | some l => if l.dirty.getLsbD i then l.poison else below
    | none => below
where
  below : Bool :=
    match if isTaproot c then none else (s.slice d (clusterOf c)).find (lineOf pa) with
    | some l => if l.dirty.getLsbD (pa % 64) then l.poison else s.poisonedFor d pa
    | none => s.poisonedFor d pa

/-- Whether a fabric address can be served (15_fabric.md R408): statuses 0x08, 0x06 and, where bytes are read, 0x09. -/
def fabricGate (pa : Nat) (kind : AccKind) : CM Unit := do
  let s ← get
  set { s with fresh := s.fresh + 1 }
  match s.fabAnswer pa kind with
  | .ok => pure ()
  | .noRoute => CM.fail 0x08
  | .refused l => CM.stop (.fail 0x06 l)
  | .bad => CM.fail 0x09

/-- A store of the thread to bytes that a copy engine is about to reach is older than the command and still in the pipeline; `p` says which
entries count (R229, R316). -/
def Core.olderEntry (k : Core) (bseq : Nat) (p : MemKind → Bool) (bytes : List Nat) : Bool :=
  k.memq.any fun m => decide (m.bseq < bseq) && p m.kind && overlaps m.kind.bytes bytes

/-- Entries whose bytes the store queue does not forward: additions and steps at the home. -/
def MemKind.isStep : MemKind → Bool
  | .addStore _ => true
  | .arrive _ _ _ _ => true
  | _ => false

/-- One line piece of global memory; YPREF reaches no fabric address (15_fabric.md R406; DEDUCED, log 71). -/
def Yc.readPiece (w : Yc) (va : W64) (n : Nat) : CM (List (BitVec 8)) := do
  let (pa, p) ← w.xlate .read va n
  let s ← get
  match p with
  | .mem =>
    if (s.core w.d w.c).olderEntry w.cmd.bseq MemKind.isStep (rangeOf pa n) then CM.stop .hold
    if (rangeOf pa n).any fun a => s.copyPoison w.d w.c w.cmd.bseq a then CM.fail 0x09
    set (s.touchHome (lineOf pa))
    pure ((rangeOf pa n).map (s.copyRead w.d w.c w.cmd.bseq))
  | .fabric =>
    if (copyForm w.cmd.op).any fun f => f.kind == .pref then CM.fail 0x03
    fabricGate pa .read
    let s ← get
    let r := s.readFabric pa n
    set r.2
    pure (bytesOf r.1 n)
  | _ =>
    let r := s.readHome pa n
    set r.2
    pure (bytesOf r.1 n)

/-- A range of bytes of a scratchpad that locks of other commands do not hold back (R240): the engine's own queue does not. -/
def Yc.lockGate (w : Yc) (d : Fin 4) (c : Fin 68) (off n : Nat) : CM Unit := do
  let s ← get
  let hit (l : Lock) : Bool := decide (l.lo < off + n) && decide (off ≤ l.hi) && !(d == w.d && c == w.c && l.eng == w.eng)
  if (s.core d c).eng.locks.any hit then CM.stop .hold

/-- A local or remote scratchpad address resolved (R233, R302, R338; 14_package.md R365): die, core, offset. An atomic at a remote scratchpad
needs the write permission of SPPERM alone (DEDUCED, log 87). -/
def Yc.spadTarget (w : Yc) (sp : Space) (a : Int) (n : Nat) (kind : AccKind) : CM (Fin 4 × Fin 68 × Nat) := do
  if a < 0 then CM.fail 0x03
  let x := a.toNat
  match sp with
  | .loc =>
    if x + n > 0x80000 then CM.fail 0x03
    w.lockGate w.d w.c x n
    pure (w.d, w.c, x)
  | _ =>
    let off := bits x 18 0
    if x / 2 ^ 28 ≠ 0 ∨ x.testBit 19 ∨ off + n > 0x80000 then CM.fail 0x03
    let d := dieOf (bits x 27 26)
    let core := bits x 25 20
    let c : Fin 68 := Fin.ofNat 68 core
    let s ← get
    if !s.enabled d core then CM.fail 0x08
    if !s.dieRoute w.d.val d.val then CM.fail 0x09
    let dom := (s.die d).domainOf (masterOf w.d w.c.val)
    if !((s.die d).spPerm.getD core 0).getLsbD (dom + (if kind.isWrite then 16 else 0)) then
      CM.stop (.fail 0x06 [⟨d, kind, masterOf w.d w.c.val, x⟩])
    w.lockGate d c off n
    pure (d, c, off)

/-- `n` bytes of a source (R233): `base` is the field, `delta` what rows and elements add. -/
def Yc.read (w : Yc) (sp : Space) (base : Nat) (delta : Int) (n : Nat) : CM (List (BitVec 8)) := do
  match sp with
  | .glob =>
    let va := globalVa base delta
    let l ← (pieces va.toNat (n + 1) 0 n).mapM fun p => w.readPiece (BitVec.ofNat 64 p.1) p.2.2
    pure l.flatten
  | _ =>
    let (d, c, off) ← w.spadTarget sp (base + delta) n .read
    let s ← get
    pure (bytesAt (s.core d c).spad off n)

/-- A write that a chunk makes: space, base field, what is added, bytes. -/
structure YWrite where
  sp : Space
  base : Nat
  delta : Int
  bytes : List (BitVec 8)

/-- A write whose place is known. -/
inductive Resolved where
  | spad (d : Fin 4) (c : Fin 68) (off : Nat) (bytes : List (BitVec 8))
  | mem (cells : Bytes)
  | outside
  | fab (cells : Bytes)
  | park (cells : Bytes) (absent : Bool)
  | acc (idx : Nat) (bytes : List (BitVec 8))

/-- The cells of a list of bytes at an address. -/
def cellsAt (a : Nat) (l : List (BitVec 8)) : Bytes := l.zipIdx.map fun p => (a + p.2, p.1)

/-- Finds the place of bytes of one line of a global write, given by their virtual addresses; an absent page parks them (R239). -/
def Yc.resolveCells (w : Yc) (va : W64) (n : Nat) (cells : Bytes) : CM Resolved := do
  let s0 ← get
  let r := (w.xlate .write va n).run.run s0
  let here (pa : Nat) : Bytes := cells.map fun x => (pa + (x.1 - va.toNat), x.2)
  match r with
  | (.ok (pa, p), s) =>
    set s
    match p with
    | .mem => pure (.mem (here pa))
    | .fabric =>
      fabricGate pa .write
      pure (.fab (here pa))
    | _ => pure .outside
  | (.error (.page _ _), s) =>
    set s
    pure (.park cells true)
  | (.error x, s) =>
    set s
    CM.stop x

/-- Parked writes are performed in their original order (R239, R248): a write to a line that an older one is parked for is parked behind it,
though its page is present. -/
def Yc.behindParked (w : Yc) (va : W64) (cells : Bytes) (r : Resolved) : CM Resolved := do
  let s ← get
  pure (match r with
    | .park c a => .park c a
    | r => if (s.core w.d w.c).eng.spill[w.y].any fun p => p.line.toNat == lineOf va.toNat then .park cells false else r)

/-- Finds the places of a write. A ring's bytes must lie within the slot of the command's entry (R233). -/
def Yc.resolve (w : Yc) (x : YWrite) : CM (List Resolved) := do
  match x.sp with
  | .glob =>
    let va := globalVa x.base x.delta
    (pieces va.toNat (x.bytes.length + 1) 0 x.bytes.length).mapM fun p => do
      let a := BitVec.ofNat 64 p.1
      let cells := cellsAt p.1 ((x.bytes.drop p.2.1).take p.2.2)
      let r ← w.resolveCells a p.2.2 cells
      w.behindParked a cells r
  | .accum => pure [.acc (x.base + x.delta).toNat x.bytes]
  | .ring =>
    let s ← get
    match w.cmd.ring with
    | none => CM.fail 0x03
    | some r =>
      let g := (s.core w.d w.c).rings[r.1]
      let off := (x.base : Int) + x.delta
      if off < 0 ∨ off + x.bytes.length > g.slotBytes then CM.fail 0x03
      let t ← w.spadTarget .loc (off + g.slotAddr r.2.2) x.bytes.length .write
      pure [.spad t.1 t.2.1 t.2.2 x.bytes]
  | sp =>
    let t ← w.spadTarget sp ((x.base : Int) + x.delta) x.bytes.length .write
    pure [.spad t.1 t.2.1 t.2.2 x.bytes]

/-- Writes bytes of a scratchpad; every word touched becomes full (R217). -/
def Core.fillSpad (k : Core) (off : Nat) (b : List (BitVec 8)) : Core :=
  let words := (List.range ((off + b.length + 3) / 4 - off / 4)).map (off / 4 + ·)
  { k.setSpad (writeBytes k.spad off b) with full := if b.isEmpty then k.full else words.foldl (fun f w => insertNat w f) k.full }

/-- An older store of the thread to the same bytes is still in its store queue (R316). -/
def Core.olderStore (k : Core) (bseq : Nat) (bytes : List Nat) : Bool := k.olderEntry bseq (fun m => !m.isLoad && !m.isHint) bytes

/-- Sends a write to a fabric address, acknowledged later (15_fabric.md R407). -/
def State.sendFabric (s : State) (w : Yc) (cells : Bytes) : State :=
  let pa := (cells.headD (0, 0)).1
  (s.writeHome cells).modHub fun h =>
    { h with fabWrites := h.fabWrites ++ [⟨h.nextFab, w.d, w.c, some w.cmd.id, pa, w.cmd.bseq, false⟩], nextFab := h.nextFab + 1 }

/-- Element size in bytes of a window's TYPE (15_fabric.md Table 15-1). -/
def winElem (w : W64 × W64) : Nat := if winType w = 2 then 2 else 4

/-- Whether every element that a contribution touches is present whole (15_fabric.md R412). -/
def wholeElems (size en : Nat) : Bool :=
  (List.range (64 / size)).all fun i => let e := en >>> (size * i) % 2 ^ size; e == 0 || e == 2 ^ size - 1

/-- Contributions of a chunk: one for each line of a window (15_fabric.md R412). -/
def State.contribute (s : State) (w : Yc) (i : Fin 16) (line data en : Nat) : State :=
  s.modHub fun h => { h with
    contribs := h.contribs ++ [⟨i, line, 1, BitVec.ofNat 64 en, BitVec.ofNat 512 data, [h.nextFab], s.pkgId, s.routeWord (fabPkg line), [s.pkgId]⟩]
    fabWrites := h.fabWrites ++ [⟨h.nextFab, w.d, w.c, some w.cmd.id, line, w.cmd.bseq, false⟩]
    nextFab := h.nextFab + 1 }

/-- Waits for words of some lines may end (09_core_traps.md Table 9-10). -/
def State.noteLines (s : State) (src : Source) (l : List Nat) : State :=
  l.foldl (fun s a => (List.range 8).foldl (fun s i => s.noteWord src (a + 8 * i)) s) s

/-- Performs one write whose place is known; what is parked is none yet. -/
def Yc.put (w : Yc) (s : State) (r : Resolved) : State :=
  match r with
  | .spad d c off b => (s.modCore d c fun k => k.fillSpad off b).noteCore w.agent d c
  | .mem cells => (((linesOf cells).foldl (fun s a => s.expose w.d w.c a) s).homeWrite cells).noteLines w.agent (linesOf cells)
  | .outside => s
  | .fab cells => s.sendFabric w cells
  | .park _ _ => s
  | .acc i b => s.modCore w.d w.c fun k =>
      { k with eng := { k.eng with acc := (List.range (b.length / 4)).foldl (fun m j => sset m (i + j) (BitVec.ofNat 32 (leOf ((b.drop (4 * j)).take 4)))) k.eng.acc } }

/-- A pager record (12_die.md Table 12-6) for a page that no outstanding request of the die names with this ASN (R334). -/
def State.requestPage (s : State) (w : Yc) (va : W64) (write : Bool) : State :=
  let x := s.die w.d
  let asn := (s.who w.d w.c).asn
  let vpn := va48 va / 4096
  if x.pager.any fun r => r.vpn == vpn && r.asn == asn then s
  else
    let rec32 := packFields [(8, vpn * 4096), (1, if write then 2 else 1), (1, 3 + w.y.val), (2, w.c.val), (4, x.nextTag),
      (4, ctxId w.d w.c (s.core w.d w.c)), (2, asn), (2, 0), (8, w.cmd.iss % 2 ^ 48)]
    let s := s.modDie w.d fun x => { x with
      pager := x.pager ++ [⟨x.nextTag, vpn, asn, rec32, false⟩], nextTag := (x.nextTag + 1) % 2 ^ 32 }
    s.pumpPager w.d (s.die w.d).pager.length

/-- Performs writes whose places are known (R236, R238; 15_fabric.md R412): all checks come first, so that what fails or is held writes
nothing. -/
def Yc.perform (w : Yc) (rs : List Resolved) : CM Unit := do
  let s ← get
  let mem := rs.flatMap fun r => match r with | .mem c => c.map (·.1) | _ => []
  if (s.core w.d w.c).olderStore w.cmd.bseq mem then CM.stop .hold
  let fab := rs.flatMap fun r => match r with | .fab c => c | _ => []
  let wins := (linesOf fab).filterMap fun a => (s.windowOf a).map fun i => (i, a, lineData fab a)
  if wins.any fun x => !wholeElems (winElem s.hub.fabRed[x.1]) x.2.2.2 then CM.fail 0x03
  let plain := rs.filter fun r => match r with | .fab ((a, _) :: _) => (s.windowOf a).isNone | _ => true
  let s := plain.foldl w.put s
  set (wins.foldl (fun s x => s.contribute w x.1 x.2.1 x.2.2.1 x.2.2.2) s)

/-- The parked writes of a chunk, one for each line (R239). -/
def Yc.parkedOf (w : Yc) (rs : List Resolved) : List Parked :=
  let cells := rs.flatMap fun r => match r with | .park c _ => c | _ => []
  (linesOf cells).map fun a => let r := lineData cells a; ⟨BitVec.ofNat 64 a, BitVec.ofNat 64 r.2, BitVec.ofNat 512 r.1, w.cmd.id⟩

/-- The pages of parked writes that no outstanding request of the die names (12_die.md R334). -/
def State.newPages (s : State) (w : Yc) (l : List Parked) : List Nat :=
  let asn := (s.who w.d w.c).asn
  (l.foldl (fun m p => insertNat (va48 p.line / 4096) m) []).filter fun v => !((s.die w.d).pager.any fun r => r.vpn == v && r.asn == asn)

/-- A queue has room for `n` records (12_die.md R335). -/
def MemQueue.roomFor (q : MemQueue) (n : Nat) : Bool := n == 0 || (sizeValid q.size.toNat && decide ((q.tail - q.head).toNat + n ≤ q.size.toNat))

/-- Makes a chunk's writes (R236, R238, R239): an engine whose spill buffer or whose die's pager queue has no room for what it parks holds
(12_die.md R334, R335). -/
def Yc.writeAll (w : Yc) (l : List YWrite) : CM Unit := do
  let rs := (← l.mapM w.resolve).flatten
  let s ← get
  let parks := w.parkedOf rs
  let absent := w.parkedOf (rs.filter fun r => match r with | .park _ a => a | _ => false)
  let spill := (s.core w.d w.c).eng.spill[w.y]
  if parks.length + spill.length > 64 then
    match spill, parks with
    | [], p :: _ => CM.stop (.page p.line true)
    | _, _ => CM.stop .hold
  if !((s.die w.d).pgq.roomFor (s.newPages w absent).length) then CM.stop .hold
  w.perform (rs.filter fun r => match r with | .park _ _ => false | _ => true)
  let s ← get
  let s := s.modCore w.d w.c fun k => { k with eng := { k.eng with spill := k.eng.spill.set w.y (k.eng.spill[w.y] ++ parks) } }
  set (absent.foldl (fun s p => s.requestPage w p.line true) s)

/-- rounding with SAT (R235): what overflows an IEEE-like destination, and an infinity, become the largest finite value, an infinite sum with a
bias of YSADD among them (R244; DESIGN CHOICE, log 77). -/
def satRound (t : ETy) (m : Rnd) (v : Num) : Nat × Option Ev :=
  match t with
  | .int _ _ => t.round m v
  | .flt f _ =>
    let r := f.round m v
    match v with
    | .inf s => if s && !f.sgn then r else (f.withSign s f.maxMag, some .ovf)
    | .fin s _ _ => if r.2 = some .ovf then (f.withSign s f.maxMag, r.2) else r
    | .nan => r

/-- BF16, FP32: the wide side of Table 5-7. -/
def ETy.isWide : ETy → Bool
  | .flt _ b => decide (b ≥ 2)
  | .int _ _ => false

def Num.isZero : Num → Bool
  | .fin _ n _ => n == 0
  | .nan => false
  | .inf _ => false

/-- cvt of R235, with the bias of R244 where one is listed. -/
def copyCvt (fs ft : ETy) (b : Nat) (scale : Num) (m : Rnd) (bias : Option Num) (x : Nat) : Nat × Option Ev :=
  let used := blkScaled b && fs.isWide != ft.isWide
  if fs = ft ∧ !blkScaled b ∧ bias.isNone then (x % 2 ^ ft.codeBits, none)
  else if used ∧ scale.isNan then ft.round m .nan
  else if used && scale.isZero then (0, some .zscale)
  else
    let v := fs.value x
    let v := if !used then v else if fs.isWide then v.divBy scale else v.mul scale
    let v := match bias with | some y => v.add y | none => v
    if blkSat b then satRound ft m v else ft.round m v

/-- The mode of a block's RM for element `j` of a chunk (R236). -/
def copyRnd (b : Nat) (state : W64) (j : Nat) : Rnd :=
  match blkRm b with
  | 0 => .rne
  | 1 => .rtz
  | _ => .rs (rbits state j)

/-- `n` bytes of the AUX list from an offset. -/
def Yc.readAux (w : Yc) (off n : Nat) : CM (List (BitVec 8)) :=
  w.read (spaceOf (blkAuxSp w.cmd.blk)) (blkList w.cmd.blk) off n

/-- One source element (R235); nibble c lies in byte c / 2 (03_numbers.md R71). -/
def Yc.readElem (w : Yc) (t : ETy) (r c : Nat) : CM Nat := do
  let b := w.cmd.blk
  let row := (r : Int) * blkSStride b
  if t.isNibble then
    let l ← w.read (spaceOf (blkSSpace b)) (blkSrc b) (row + c / 2) 1
    pure (leOf l / 16 ^ (c % 2) % 16)
  else
    let n := t.bits / 8
    let l ← w.read (spaceOf (blkSSpace b)) (blkSrc b) (row + n * c) n
    pure (leOf l)

/-- The accumulator index of element (r, c) of a region (R242). -/
def accElem (v r c : Nat) : Nat := 512 * (bits v 5 0 + r) + bits v 24 16 + c

/-- What a chunk writes and the events of its elements. -/
structure Chunk where
  writes : List YWrite
  evs : List (Nat × Ev)

/-- The head command of an engine changed. -/
def State.modHead (s : State) (w : Yc) (f : CopyCmd → CopyCmd) : State :=
  s.modCore w.d w.c fun k => match k.eng.yq[w.y] with
    | [] => k
    | y :: l => { k with eng := { k.eng with yq := k.eng.yq.set w.y (f y :: l) } }

/-- The random state a chunk that rounds under RS uses: it is read, and stepped, when the chunk starts (R236). -/
def Yc.chunkRng (w : Yc) : CM W64 := do
  match w.cmd.rng with
  | some x => pure x
  | none =>
    let s ← get
    let x := (s.core w.d w.c).rngY w.y
    let s := s.modCore w.d w.c fun k =>
      { k with regs := { k.regs with rng := k.regs.rng.setIfInBounds (2 + w.y.val) (x + BitVec.ofNat 64 (4096 * gammaR)) } }
    set (s.modHead w fun y => { y with rng := some x })
    pure x

/-- The bias listed for element `e` of a YSADD (R244). -/
def Yc.biasOf (w : Yc) (e : Nat) : CM (Option Num) := do
  let b := w.cmd.blk
  let l ← w.readAux 0 (8 * blkNp b)
  pure (((List.range (blkNp b)).find? fun i => leOf ((l.drop (8 * i)).take 4) == e).map fun i =>
    Fmt.fp32.decode (leOf ((l.drop (8 * i + 4)).take 4)))

/-- A value of the source position (r, c); positions at or above EROWS and ECOLS are zero and not read (R235, R248). -/
def Yc.source (w : Yc) (k : YKind) (t : ETy) (r c : Nat) : CM Nat := do
  let b := w.cmd.blk
  if k = .fill then pure (blkSrc b)
  else if (decide (r ≥ blkERows b) && k != .scat) || decide (c ≥ blkECols b) then pure 0
  else if k = .acc then pure (sget w.cmd.snap (accElem (blkSrc b) r c)).toNat
  else w.readElem t r c

/-- A chunk of a converting copy (R235, R236, R242, R244, R247, R248; events numbered by R423). -/
def Yc.convChunk (w : Yc) (k : YKind) (v : Conv) : CM Chunk := do
  let b := w.cmd.blk
  let i := w.cmd.chunk / v.prow
  let j0 := w.cmd.chunk % v.prow * v.per
  let n := Nat.min v.dlen (j0 + v.per) - j0
  let idx ← if k = .gath ∨ k = .scat then (do let l ← w.readAux (4 * i) 4; pure (leOf l)) else pure i
  if k = .scat ∧ idx ≥ blkERows b then pure ⟨[], []⟩
  else
    let at0 (j : Nat) : Nat × Nat := if blkTrans b then (j0 + j, i) else (if k = .gath then idx else i, j0 + j)
    let biases ← (List.range n).mapM fun j => if k = .sadd then w.biasOf ((at0 j).1 * blkCols b + (at0 j).2) else pure none
    let rounds := blkRm b == 2 && (v.fs != v.ft || blkScaled b || biases.any Option.isSome)
    let state ← if rounds then w.chunkRng else pure 0
    let scale := Fmt.e5m3.decode w.cmd.scale
    let l ← biases.zipIdx.mapM fun p => do
      let x ← w.source k v.fs (at0 p.2).1 (at0 p.2).2
      pure (copyCvt v.fs v.ft b scale (copyRnd b state p.2) p.1 x)
    let evs := l.zipIdx.filterMap fun p => p.1.2.map fun e => (i * v.dlen + j0 + p.2, e)
    let row := if k = .scat then idx else i
    let bytes := bytesOf (packElems v.ft.bits (l.map Prod.fst)) (v.ft.bytesOf n)
    if k = .accp then pure ⟨[⟨.accum, accElem (blkDst b) row j0, 0, bytes⟩], evs⟩
    else pure ⟨[⟨spaceOf (blkDSpace b), blkDst b, (row : Int) * blkDStride b + (v.ft.bytesOf j0 : Nat), bytes⟩], evs⟩

/-- R74 for one code. -/
def mx4Code (c : Nat) : Nat := if c < 8 then 8 + c else 15 - c

/-- R75: the E5M3 code of an E8M0 scale. The NaN scale 0xFF posts no event (DESIGN CHOICE, log 77). -/
def mx4Scale (k : Nat) : Nat × Option Ev :=
  let t : Int := (k : Int) - 128
  if k = 0xFF then (0xFF, none)
  else if t < -17 then (0x01, some .scaleSat)
  else if t > 16 then (0xFE, some .scaleSat)
  else ((Fmt.e5m3.round .rne ((Num.fin false 1 1).mulPow2 t)).1, none)

/-- A chunk of YMX4: one source row and its scales (R236, R243). -/
def Yc.mx4Chunk (w : Yc) : CM Chunk := do
  let b := w.cmd.blk
  let r := w.cmd.chunk
  let nq := blkCols b / 32
  let codes ← w.read (spaceOf (blkSSpace b)) (blkSrc b) (r * blkSStride b) (blkCols b / 2)
  let scales ← w.readAux (r * nq) nq
  let out := codes.map fun x => BitVec.ofNat 8 (mx4Code (x.toNat % 16) + 16 * mx4Code (x.toNat / 16))
  let sc := scales.map fun x => mx4Scale x.toNat
  let evs := sc.zipIdx.filterMap fun p => p.1.2.map fun e => (r * blkCols b + 32 * p.2, e)
  let sp := spaceOf (blkDSpace b)
  pure ⟨[⟨sp, blkDst b, r * blkDStride b, out⟩,
    ⟨sp, blkDst b, (blkRows b : Int) * blkDStride b + (r * nq : Nat), sc.map fun p => BitVec.ofNat 8 p.1⟩], evs⟩

/-- Lines of YLINE (R249). -/
def Yc.lineChunk (w : Yc) : CM Chunk := do
  let b := w.cmd.blk
  let l ← w.read (spaceOf (blkSSpace b)) (blkSrc b) (64 * w.cmd.chunk : Nat) 64
  pure ⟨[⟨spaceOf (blkDSpace b), blkDst b, (64 * w.cmd.chunk : Nat), l⟩], []⟩

/-- YREM (R247): with MODE 1 it holds until the word is empty. -/
def Yc.remChunk (w : Yc) : CM Chunk := do
  let b := w.cmd.blk
  let sp := spaceOf (blkDSpace b)
  let (d, c, off) ← w.spadTarget sp (blkDst b) 4 .write
  let s ← get
  if blkMode b && (s.core d c).full.contains (off / 4) then CM.stop .hold
  pure ⟨[⟨sp, blkDst b, 0, bytesOf (blkSrc b) 4⟩], []⟩

/-- A prefetch request (R246; 12_die.md R335): written, or dropped when the queue is full. -/
def State.prefetchRequest (s : State) (w : Yc) (id : Nat) : Bool × State :=
  let q := (s.die w.d).pfq
  if !q.room then (false, s)
  else
    let r := s.queueRecord w.d q 32 (packFields
      [(4, id), (4, ctxId w.d w.c (s.core w.d w.c)), (8, blkSrc w.cmd.blk), (8, w.cmd.iss % 2 ^ 48), (8, 0)])
    (true, r.1.modDie w.d fun x => { x with pfq := r.2 })

/-- A chunk of YPREF: up to 64 identifiers; a list on an absent page is requested and holds the engine (R239, R246; DESIGN CHOICE, log 77). A
dropped request is remembered in `scale`, which YPREF does not use otherwise. -/
def Yc.prefChunk (w : Yc) : CM Unit := do
  let b := w.cmd.blk
  let n := Nat.min 64 (blkNp b - 64 * w.cmd.chunk)
  let l ← w.readAux (256 * w.cmd.chunk) (4 * n)
  let s ← get
  let ids := (List.range n).map fun i => leOf ((l.drop (4 * i)).take 4)
  let r := ids.foldl (fun r id => let x := State.prefetchRequest r.2 w id; (r.1 && x.1, x.2)) (true, s)
  set (if r.1 then r.2 else r.2.modHead w fun y => { y with scale := 1 })

/-- A record of a YATOM list (R245): target, operation, bytes, operand; none where it is malformed. -/
structure AtomRec where
  target : Nat
  op : Nat
  w : Nat
  b : Nat

def atomRec (l : List (BitVec 8)) : Option AtomRec :=
  let v := leOf l
  let t := v % 2 ^ 48
  let op := elemAt v 8 6
  let w := elemAt v 8 7
  let n := if w = 0 then 4 else 8
  if op > 6 ∨ w > 1 ∨ t % n ≠ 0 then none else some ⟨t, op, n, elemAt v 64 1⟩

/-- Where an atomic is performed. -/
inductive AtomAt where
  | home (pa : Nat)
  | spad (d : Fin 4) (c : Fin 68) (off : Nat)

/-- Finds the target of a record (R245; 15_fabric.md R412). -/
def Yc.atomTarget (w : Yc) (x : AtomRec) : CM AtomAt := do
  match spaceOf (blkDSpace w.cmd.blk) with
  | .glob =>
    let (pa, p) ← w.xlate .atomic (globalVa x.target 0) x.w
    let s ← get
    match p with
    | .mem =>
      if (s.core w.d w.c).olderStore w.cmd.bseq (rangeOf pa x.w) then CM.stop .hold
      if s.homePoison w.d w.c pa then CM.fail 0x09
      pure (.home pa)
    | .fabric =>
      if (s.windowOf pa).isSome then CM.fail 0x03
      fabricGate pa .atomic
      pure (.home pa)
    | _ => CM.fail 0x05
  | sp =>
    let t ← w.spadTarget sp x.target x.w .atomic
    pure (.spad t.1 t.2.1 t.2.2)

/-- Performs one record: the old value (R245), past every slice (11_ordering.md R316); full/empty bits stay (R217). -/
def Yc.atomDo (w : Yc) (s : State) (x : AtomRec) (t : AtomAt) : Nat × State :=
  match t with
  | .home pa =>
    let a := s.ownPa pa
    let s := if s.cacheable pa then s.expose w.d w.c pa else s
    let r := (if s.cacheable a then s.invalidateSlices (lineOf a) else s).amoHome pa (amoOf x.op) x.w x.b 0
    (r.1, r.2.noteWord w.agent (s.ownPa pa))
  | .spad d c off =>
    let old := readLE (s.core d c).spad off x.w
    (old, (s.modCore d c fun k => k.setSpad (writeLE k.spad off x.w ((amoOf x.op).eval x.w old x.b 0))).noteCore w.agent d c)

/-- Whether a record of a YATOM goes to the fabric: it names a fabric address, or a table of another package that refuses the walk or that no
route reaches (15_fabric.md R408, R415). -/
def Yc.onFabric (w : Yc) (x : AtomRec) (s : State) : Bool :=
  blkDSpace w.cmd.blk == 0 &&
    match (s.locate (s.who w.d w.c) .atomic (globalVa x.target 0) x.w).1 with
    | .ok (_, p) => p == .fabric
    | .error .fabUnlinked => true
    | .error .fabNoRoute => true
    | .error (.fabRefused _) => true
    | .error _ => false

/-- What looking for the target of a record gives: the target, or why there is none, and whether the record goes to the fabric. -/
inductive AtomTry where
  | ok (x : AtomRec) (t : AtomAt) (fab : Bool)
  | bad (e : CStop) (fab : Bool)

def AtomTry.fab : AtomTry → Bool
  | .ok _ _ f => f
  | .bad _ f => f

/-- A record that is refused or that no route reaches; one that is malformed ends its command as R245 says. -/
def AtomTry.refused : AtomTry → Bool
  | .ok _ _ _ => false
  | .bad (.fail st _) _ => st != 0x03
  | .bad _ _ => false

/-- Finds the target of one record (R245). -/
def Yc.atomTry (w : Yc) (r : Option AtomRec) : CM AtomTry := do
  match r with
  | none => pure (.bad (.fail 0x03 []) false)
  | some x =>
    let s0 ← get
    match (w.atomTarget x).run.run s0 with
    | (.ok t, s) => do
      set s
      pure (.ok x t (w.onFabric x s0))
    | (.error e, s) => do
      set s
      pure (.bad e (w.onFabric x s0))

/-- The records up to the first without a target. -/
def upToBad : List AtomTry → List AtomTry
  | [] => []
  | .ok x t f :: l => .ok x t f :: upToBad l
  | .bad e f :: _ => [.bad e f]

/-- The records of a chunk that count: a record without a target keeps those behind it from being performed, unless the chunk has records for
the fabric and one of its records is refused or unreachable; then every other record is performed (15_fabric.md R415). -/
def tried (l : List AtomTry) : List AtomTry := if l.any AtomTry.fab && l.any AtomTry.refused then l else upToBad l

/-- Why a chunk of records ends its command: the status of the first that is refused or unreachable, else of the first that is malformed, and
every refusal (12_die.md R339). -/
def atomFailure (l : List AtomTry) : Option CStop :=
  let fails := l.filterMap fun r => match r with | .bad (.fail st q) _ => some (st, q) | _ => none
  ((fails.find? fun f => f.1 != 0x03).orElse fun _ => fails.head?).map fun f => .fail f.1 (fails.flatMap (·.2))

/-- A chunk of YATOM (R236, R245; 15_fabric.md R415). A page that is absent holds the chunk before any record is performed. RET leaves the
full/empty bits as they are (R217). -/
def Yc.atomChunk (w : Yc) : CM Unit := do
  let b := w.cmd.blk
  let n := Nat.min 8 (blkNp b - 8 * w.cmd.chunk)
  let l ← w.readAux (128 * w.cmd.chunk) (16 * n)
  let tries := tried (← (List.range n).mapM fun i => w.atomTry (atomRec ((l.drop (16 * i)).take 16)))
  match tries.findSome? fun r => match r with | .bad (.fail _ _) _ => none | .bad e _ => some e | .ok _ _ _ => none with
  | some e => CM.stop e
  | none => pure ()
  let ret := blkDst b + 64 * w.cmd.chunk
  if blkRet b then
    if ret + 8 * n > 0x80000 then CM.fail 0x03
    w.lockGate w.d w.c ret (8 * n)
  let s ← get
  set (tries.zipIdx.foldl (fun s p => match p.1 with
    | .bad _ _ => s
    | .ok x t _ =>
      let r := w.atomDo s x t
      if blkRet b then
        (r.2.modCore w.d w.c fun k => k.setSpad (writeLE k.spad (ret + 8 * p.2) 8 (sx64 (8 * x.w) r.1))).noteCore w.agent w.d w.c
      else r.2) s)
  match atomFailure tries with
  | some e => CM.stop e
  | none => pure ()

/-- One record for each event kind, over what the command has counted so far and what a chunk adds (03_numbers.md R95). -/
def mergeEvs (a b : List EvSum) : List EvSum :=
  Ev.all.filterMap fun k =>
    match a.find? fun x => x.code == k.code, b.find? fun x => x.code == k.code with
    | some x, some y => some ⟨x.code, x.count + y.count, Nat.min x.first y.first⟩
    | some x, none => some x
    | none, y => y

/-- One chunk of a running command (R236). -/
def Yc.chunk (w : Yc) (k : YKind) : CM (List (Nat × Ev)) := do
  match k with
  | .copy | .acc | .accp | .sadd | .fill | .gath | .scat =>
    match convOf k w.cmd.blk with
    | none => CM.fail 0x03
    | some v => let x ← w.convChunk k v; w.writeAll x.writes; pure x.evs
  | .mx4 => let x ← w.mx4Chunk; w.writeAll x.writes; pure x.evs
  | .line => let x ← w.lineChunk; w.writeAll x.writes; pure x.evs
  | .rem => let x ← w.remChunk; w.writeAll x.writes; pure x.evs
  | .atom => do w.atomChunk; pure []
  | .pref => do w.prefChunk; pure []
  | .push => pure []

/-- Strictly rising, and below a bound (R244). -/
def risingBelow (n : Nat) : List Nat → Bool
  | [] => true
  | [x] => decide (x < n)
  | x :: y :: l => decide (x < y) && decide (x < n) && risingBelow n (y :: l)

/-- The first 17 bytes of a tile header carry an invalid descriptor: FMTDESC and FSIGN of a header of KIND 6, the one kind with a descriptor
(03_numbers.md R69, R72; 06_lut_engine.md Table 6-5). -/
def hdrDescBad (l : List (BitVec 8)) : Bool :=
  let t := leOf l
  tileField t 0 1 == 6 && (Fmt.ofDesc (BitVec.ofNat 17 (tileField t 2 2 + 2 ^ 16 * (tileField t 14 2 / 2 ^ 15)))).isNone

/-- What a command reads at its start: the scale byte (R235), the YSADD list (R244); it gives the scale. Of the tile header that TSCALE names,
the bytes up to the scale at offset 16 are read, and an invalid descriptor ends the command (03_numbers.md R69; R234; DEDUCED, log 71). -/
def Yc.start (w : Yc) (k : YKind) : CM Nat := do
  let b := w.cmd.blk
  if k = .sadd then
    let l ← w.readAux 0 (8 * blkNp b)
    if !(risingBelow (blkRows b * blkCols b) ((List.range (blkNp b)).map fun i => leOf ((l.drop (8 * i)).take 4))) then CM.fail 0x07
  if blkTScale b then
    let l ← w.readAux 0 17
    if hdrDescBad l then CM.fail 0x03
    pure (tileField (leOf l) 16 1)
  else pure (if k = .pref then 0 else blkScale b)

/-- A command ends with a status; the first one stays. -/
def CopyCmd.end (y : CopyCmd) (st : Nat) : CopyCmd :=
  match y.st with
  | .ended _ => y
  | .waiting => { y with st := .ended st, page := none }
  | .running => { y with st := .ended st, page := none }

/-- The status of a command that has ended and not yet completed: one whose ring is gone, or that a YCANCEL has marked, reports that
(R227, R250). -/
def CopyCmd.lastStatus (y : CopyCmd) (st : Nat) : Nat :=
  if st = 0x01 ∨ st = 0x02 then st else if y.halted then 0x01 else if y.cancel then 0x02 else st

/-- What a stop does to the command at the head of the queue. -/
def Yc.stopped (w : Yc) (s : State) (x : CStop) : State :=
  match x with
  | .fail st refs => (refs.foldl State.logRefused s).modHead w fun y => y.end st
  | .page va write => (s.requestPage w va write).modHead w fun y => { y with page := some (va48 va / 4096) }
  | .hold => s

/-- Runs a step of the engine. -/
def Yc.run {α : Type} (w : Yc) (s : State) (m : CM α) (f : α → State → State) : State :=
  match m.run.run s with
  | (.ok x, s) => f x s
  | (.error e, s) => w.stopped s e

/-- The cells of a parked write, by virtual address. -/
def Parked.cells (p : Parked) : Bytes :=
  ((List.range 64).filter fun i => p.en.getLsbD i).map fun i => (p.line.toNat + i, BitVec.ofNat 8 (elemAt p.data.toNat 8 i))

/-- Performs one parked write; its page may still be absent. -/
def Yc.unpark (w : Yc) (p : Parked) : CM Bool := do
  match ← w.resolveCells p.line 64 p.cells with
  | .park _ _ => pure false
  | r => do
    w.perform [r]
    pure true

/-- The parked writes of an engine. -/
def State.setSpill (s : State) (w : Yc) (l : List Parked) : State :=
  s.modCore w.d w.c fun k => { k with eng := { k.eng with spill := k.eng.spill.set w.y l } }

/-- Performs parked writes in order until one's page is still absent (R239, R318), which is requested again (12_die.md R334). One that is
refused ends its command, and those behind it are gone (R238, R239). -/
def Yc.replay (w : Yc) : Nat → State → State
  | 0, s => s
  | n + 1, s =>
    match ((s.core w.d w.c).eng.spill[w.y]) with
    | [] => s
    | p :: l =>
      match (w.unpark p).run.run s with
      | (.ok true, s) => Yc.replay w n (s.setSpill w l)
      | (.ok false, s) => s.requestPage w p.line true
      | (.error (.fail st refs), s) => w.stopped (s.setSpill w []) (.fail st refs)
      | (.error x, s) => w.stopped s x

/-- Commands that a YACCP waits for are still in the matrix queue (R242). -/
def Core.matsPending (k : Core) (y : CopyCmd) : Bool := k.eng.mq.any fun m => y.mats.contains m.id

/-- The entry's slot is not free yet (R221). -/
def Core.slotBusy (k : Core) (y : CopyCmd) : Bool :=
  match y.ring with
  | none => false
  | some r => let g := k.rings[r.1]; decide ((r.2.2 - g.h).toNat ≥ g.nslot)

/-- A running command performs its next chunk, or replays what it parked. -/
def State.runChunk (s : State) (w : Yc) (k : YKind) (p : Plan) : State :=
  let co := s.core w.d w.c
  let s := w.replay (co.eng.spill[w.y]).length s
  if !(((s.core w.d w.c).eng.yq[w.y]).any fun y => y.id == w.cmd.id && y.st == .running) then s
  else if p.n ≤ w.cmd.chunk ∨ (s.die w.d).holds w.c ∨ co.slotBusy w.cmd then s
  else
    w.run s (w.chunk k) fun evs s =>
      s.modHead w fun y => { y with chunk := y.chunk + 1, evs := mergeEvs y.evs (summarize evs), page := none, rng := none }

/-- COPY_CHUNK: the head command of an engine stops (R227, R250), starts (R226, R234, R242; 04_control_scalar.md R128), or performs a chunk; one
that has ended replays what earlier chunks have parked (R238), or discards it (R227, R250). YPUSH and YCANCEL have none. Energy and heat hold starts
and chunks (12_die.md R341; 14_package.md R402). -/
def State.copyChunk (s : State) (d : Fin 4) (c : Fin 68) (u : Bool) : State :=
  let k := s.core d c
  match k.eng.yq[copyIdx u] with
  | [] => s
  | y :: _ =>
    let w : Yc := ⟨d, c, copyIdx u, y⟩
    match copyForm y.op, y.st with
    | none, _ => s
    | some _, .ended st =>
      if y.halted || y.cancel then (s.setSpill w []).modHead w fun y => { y with st := .ended (y.lastStatus st) }
      else w.replay (k.eng.spill[copyIdx u]).length s
    | some f, .waiting =>
      if f.kind = .push then s
      else if y.halted then s.modHead w fun y => y.end 0x01
      else if y.cancel then s.modHead w fun y => y.end 0x02
      else if k.fenced (copyEng u) y.bseq || k.acquireBefore y.bseq || k.matsPending y || (s.die d).holds c then s
      else
        match planOf f y.blk with
        | none => s.modHead w fun y => y.end 0x03
        | some p =>
          w.run s (w.start f.kind) fun scale s =>
            let snap := if f.kind = .acc then k.eng.acc else []
            let y := { y with st := .running, scale := scale, snap := snap, page := none }
            (s.modHead w fun _ => y).runChunk ⟨d, c, copyIdx u, y⟩ f.kind p
    | some f, .running =>
      if y.halted then (s.setSpill w []).modHead w fun y => y.end 0x01
      else if y.cancel then (s.setSpill w []).modHead w fun y => y.end 0x02
      else
        match planOf f y.blk with
        | none => s
        | some p => s.runChunk w f.kind p

/-- The token a status gives (Table 8-8). -/
def statusToken (st : Nat) : Nat := if st = 0 ∨ st = 0x0A then 0 else if st < 3 then 1 else 2

/-- A COPY_ERROR cause is pending, or lost where four are (09_core_traps.md R254). -/
def Engines.addErr (x : Engines) (i : Fin 2) (e : CopyErr) : Engines :=
  if (x.errs[i]).length ≥ 4 then { x with lostErr := x.lostErr.set i true }
  else { x with errs := x.errs.set i (x.errs[i] ++ [e]) }

/-- The head command leaves its engine with a status (R237, R238, R240): its parked writes go, its ring entry is pushed, the record's word 1
and then word 0 are written full, its records posted, its cause raised, its token kept. -/
def Core.finishCopy (k : Core) (u : Bool) (y : CopyCmd) (st : Nat) : Core :=
  let i := copyIdx u
  let x := k.eng
  let x := { x with
    yq := x.yq.set i ((x.yq[i]).drop 1)
    spill := x.spill.set i ((x.spill[i]).filter fun p => p.cmd != y.id)
    toks := if statusToken st = 0 then x.toks else x.toks ++ [(copyEng u, y.win, statusToken st)] }
  let x := if 3 ≤ st ∧ st ≤ 9 then x.addErr i ⟨st, y.baddr, y.iss, blkCplOff y.blk⟩ else x
  let push := match y.ring with
    | some r => if st = 0 ∧ (k.rings[r.1]).gen = r.2.1 ∧ !((copyForm y.op).any fun f => f.kind == .push)
        then k.rings.set r.1 ((k.rings[r.1]).finish r.2.2) else k.rings
    | none => k.rings
  let k := { k with eng := x, rings := push }
  let off := blkCplOff y.blk
  let k := if blkCplEn y.blk then
      (k.fillSpad (off + 4) (bytesOf (st + 256 * (y.chunk % 2 ^ 24)) 4)).fillSpad off (bytesOf (blkCplVal y.blk) 4)
    else k
  let k := { k with eng := { k.eng with fences := k.eng.fences.filter k.fenceLive } }
  k.postEvents (if u then 7 else 6) y.handler y.baddr y.iss y.evs

/-- Whether the other engine has locked bytes of the completion record (R240). -/
def Core.recordLocked (k : Core) (u : Bool) (y : CopyCmd) : Bool :=
  blkCplEn y.blk && k.eng.locks.any fun l =>
    l.eng != copyEng u && decide (l.lo < blkCplOff y.blk + 8) && decide (blkCplOff y.blk ≤ l.hi)

/-- COPY_COMPLETION_RECORD: the head command leaves once it has ended, or has performed every chunk with nothing parked; its fabric writes
must be acknowledged (15_fabric.md R407, R414). One that fills a ring entry waits until the entry's slot is free, a command without chunks too
(R221). A YCANCEL completes in its place (R250). -/
def State.copyCompletion (s : State) (d : Fin 4) (c : Fin 68) (u : Bool) : State :=
  let k := s.core d c
  match k.eng.yq[copyIdx u] with
  | [] => s
  | y :: l =>
    match copyForm y.op with
    | none => s.setCore d c { k with eng := { k.eng with yq := k.eng.yq.set (copyIdx u) l } }
    | some f =>
      let acked := !(s.hub.fabWrites.any fun w => w.die == d && w.core == c && w.cmd == some y.id)
      let parked := (k.eng.spill[copyIdx u]).any fun p => p.cmd == y.id
      let done := match y.st with
        | .ended st => if parked && !(y.halted || y.cancel) then none else some (y.lastStatus st)
        | .waiting => none
        | .running =>
          match planOf f y.blk with
          | none => none
          | some p => if y.halted then some 0x01 else if y.cancel then some 0x02
            else if decide (p.n ≤ y.chunk) && !parked && !k.slotBusy y then some (if f.kind == .pref && y.scale == 1 then 0x0A else 0) else none
      match done with
      | some st => if acked && !(k.recordLocked u y) then (s.setCore d c (k.finishCopy u y st)).noteCore (.engine d c (copyEng u)) d c else s
      | none => s

/-- YPUSH (R241): the `n` lowest-numbered marked entries become finished; none where fewer are marked. -/
def Ring.pushMarked (g : Ring) (n : Nat) : Option Ring :=
  if n = 0 ∨ g.marks.length < n then none
  else
    let g := { g with done := g.done ++ g.marks.take n, marks := g.marks.drop n }
    some (Ring.pushAux g.done.length g)

/-- YPUSH_FINISH: a YPUSH at the head of its engine acts and completes (R227, R234, R241). -/
def State.ypushFinish (s : State) (d : Fin 4) (c : Fin 68) (u : Bool) : State :=
  let k := s.core d c
  match k.eng.yq[copyIdx u] with
  | [] => s
  | y :: _ =>
    match copyForm y.op, y.ring with
    | some f, some r =>
      if f.kind ≠ .push ∨ k.fenced (copyEng u) y.bseq ∨ k.acquireBefore y.bseq ∨ k.recordLocked u y then s
      else
        let g := k.rings[r.1]
        let fin (k : Core) (y : CopyCmd) (st : Nat) : State := (s.setCore d c (k.finishCopy u y st)).noteCore (.engine d c (copyEng u)) d c
        if y.cancel then fin k y 0x02
        else if g.gen ≠ r.2.1 ∨ y.halted then fin k y 0x01
        else if (s.die d).holds c then s
        else if (planOf f y.blk).isNone then fin k y 0x03
        else
          match g.pushMarked (blkRows y.blk) with
          | none => fin k y 0x03
          | some g => fin { k with rings := k.rings.set r.1 g } { y with chunk := 1 } 0
    | _, _ => s

end Sys2Proof.Machine
end

