-- ==== Sys2Proof/Machine/Bundle.lean ====
section
/-! DEFINITION. The operation of every slot word, and BUNDLE_ISSUE: one bundle fetched from memory, checked and issued (01_bundles.md R11 to
R45; 95_what_each_step_holds.md). -/

namespace Sys2Proof.Machine

open Sys2Proof

/-- Operations of the control class. -/
def semControl : ControlOp → SlotOp
  | .cnop => opCnop
  | .br bt => opBr bt
  | .brp bt neg ps => opBrp bt neg ps
  | .brlc bt lc => opBrlc bt lc
  | .brl bt bl => opBrl bt bl
  | .brx a => opBrx a
  | .halt => opHalt
  | .delay n => opDelay n
  | .pbr bd i => opPbr bd i
  | .pbrs d a => opPbrs d a
  | .bget d a => opBget d a
  | .btok d e => opBtok d e
  | .lcset d n => opLcset d n
  | .lcsets d a => opLcsets d a
  | .lcget d a => opLcget d a
  | .skset d n => opSkset d n
  | .sksets d a => opSksets d a
  | .skget d a => opSkget d a
  | .shape d a b => opShape d a b
  | .shapex d a imm => opShapex d a imm
  | .shget d a => opShget d a
  | .fdset d a => opFdset d a
  | .fdget d a => opFdget d a
  | .hinit d a => opHinit d a
  | .hwait d n => opHwait d n
  | .hres d n => opHres d n
  | .hadv d n => opHadv d n
  | .hcommit d a => opHcommit d a
  | .hget d a => opHget d a
  | .hstat d a => opHstat d a
  | .qfence m => opQfence m
  | .barinit a n => opBarinit a n
  | .bararv sc n => opBararv sc n
  | .barwait sc n => opBarwait sc n
  | .barrem a sc => opBarrem a sc
  | .gjoin a => opGjoin a
  | .gleave a => opGleave a
  | .lpatch a b k => opLpatch a b k
  | .larm d a => opLarm d a
  | .lwait a => opLwait a
  | .trap n => opTrap n
  | .rft => opRft
  | .brk n => opBrk n
  | .csrrd d n => opCsrrd d n
  | .csrwr a n => opCsrwr a n
  | .csrset a n => opCsrset a n
  | .csrclr a n => opCsrclr a n
  | .scall n => opScall n
  | .sret => opSret
  | .wfi => opWfi
  | .tbwait d a => opTbwait d a

/-- Operations of the scalar class. -/
def semScalar : ScalarOp → SlotOp
  | .snop => opSnop
  | .add d a b => opAdd d a b
  | .sub d a b => opSub d a b
  | .mul d a b => opMul d a b
  | .mulh d a b => opMulh d a b
  | .mulhu d a b => opMulhu d a b
  | .and d a b => opAnd d a b
  | .or d a b => opOr d a b
  | .xor d a b => opXor d a b
  | .andn d a b => opAndn d a b
  | .orn d a b => opOrn d a b
  | .shl d a b => opShl d a b
  | .shr d a b => opShr d a b
  | .sra d a b => opSra d a b
  | .rol d a b => opRol d a b
  | .min d a b => opMin d a b
  | .max d a b => opMax d a b
  | .minu d a b => opMinu d a b
  | .maxu d a b => opMaxu d a b
  | .slt d a b => opSlt d a b
  | .sltu d a b => opSltu d a b
  | .seq d a b => opSeq d a b
  | .sne d a b => opSne d a b
  | .clz d a => opClz d a
  | .mov d a => opMov d a
  | .ctz d a => opCtz d a
  | .popc d a => opPopc d a
  | .sext d a w => opSext d a w
  | .zext d a w => opZext d a w
  | .addi d a i => opAddi d a i
  | .muli d a i => opMuli d a i
  | .andi d a i => opAndi d a i
  | .ori d a i => opOri d a i
  | .xori d a i => opXori d a i
  | .shli d a i => opShli d a i
  | .shri d a i => opShri d a i
  | .srai d a i => opSrai d a i
  | .roli d a i => opRoli d a i
  | .slti d a i => opSlti d a i
  | .sltui d a i => opSltui d a i
  | .seqi d a i => opSeqi d a i
  | .mini d a i => opMini d a i
  | .maxi d a i => opMaxi d a i
  | .li d imm => opLi d imm
  | .lih d imm => opLih d imm
  | .addx d a imm => opAddx d a imm
  | .andx d a imm => opAndx d a imm
  | .orx d a imm => opOrx d a imm
  | .xorx d a imm => opXorx d a imm
  | .spset d a => opSpset d a
  | .spany d a => opSpany d a
  | .spall d a => opSpall d a
  | .spcnt d a => opSpcnt d a
  | .scyc d => opScyc d
  | .svl d => opSvl d
  | .bswap d a => opBswap d a

/-- Operations of the address class. -/
def semAddress : AddressOp → SlotOp
  | .anop => opAnop
  | .aadd d a b => opAadd d a b
  | .asub d a b => opAsub d a b
  | .aadda d a b => opAadda d a b
  | .amov d a => opAmov d a
  | .asets d a => opAsets d a
  | .agets d a => opAgets d a
  | .aaddi d a i => opAaddi d a i
  | .ali d imm => opAli d imm
  | .alih d imm => opAlih d imm
  | .aaddx d a imm => opAaddx d a imm
  | .ldspI8 d ab pi i => opLdspI8 d ab pi i
  | .ldspI16 d ab pi i => opLdspI16 d ab pi i
  | .ldspI32 d ab pi i => opLdspI32 d ab pi i
  | .ldspI64 d ab pi i => opLdspI64 d ab pi i
  | .ldspUi8 d ab pi i => opLdspUi8 d ab pi i
  | .ldspUi16 d ab pi i => opLdspUi16 d ab pi i
  | .ldspUi32 d ab pi i => opLdspUi32 d ab pi i
  | .stspI8 d ab pi i => opStspI8 d ab pi i
  | .stspI16 d ab pi i => opStspI16 d ab pi i
  | .stspI32 d ab pi i => opStspI32 d ab pi i
  | .stspI64 d ab pi i => opStspI64 d ab pi i
  | .ldgI8 d ab pi i => opLdgI8 d ab pi i
  | .ldgI16 d ab pi i => opLdgI16 d ab pi i
  | .ldgI32 d ab pi i => opLdgI32 d ab pi i
  | .ldgI64 d ab pi i => opLdgI64 d ab pi i
  | .ldgUi8 d ab pi i => opLdgUi8 d ab pi i
  | .ldgUi16 d ab pi i => opLdgUi16 d ab pi i
  | .ldgUi32 d ab pi i => opLdgUi32 d ab pi i
  | .stgI8 d ab pi i => opStgI8 d ab pi i
  | .stgI16 d ab pi i => opStgI16 d ab pi i
  | .stgI32 d ab pi i => opStgI32 d ab pi i
  | .stgI64 d ab pi i => opStgI64 d ab pi i
  | .ldf d ab pi i => opLdf d ab pi i
  | .ldfe d ab pi i => opLdfe d ab pi i
  | .ste d ab pi i => opSte d ab pi i
  | .feemp ab pi i => opFeemp ab pi i
  | .waita d ab pi i => opWaita d ab pi i
  | .amadd d a b w => opAmadd d a b w
  | .amand d a b w => opAmand d a b w
  | .amor d a b w => opAmor d a b w
  | .amxor d a b w => opAmxor d a b w
  | .ammin d a b w => opAmmin d a b w
  | .ammax d a b w => opAmmax d a b w
  | .amswp d a b w => opAmswp d a b w
  | .amcas d a b w => opAmcas d a b w
  | .ldaqI32 d ab sc i => opLdaqI32 d ab sc i
  | .ldaqI64 d ab sc i => opLdaqI64 d ab sc i
  | .strlI32 d ab sc i => opStrlI32 d ab sc i
  | .strlI64 d ab sc i => opStrlI64 d ab sc i
  | .qmark => opQmark
  | .l1fl sc => opL1fl sc
  | .l1inv sc => opL1inv sc
  | .l1fll ab i => opL1fll ab i
  | .l1invl ab i => opL1invl ab i
  | .ldpf ab i => opLdpf ab i

/-- Operations of the vector class. -/
def semVector : VectorOp → SlotOp
  | .vnop => opVnop
  | .vadd vd va vb t => opVadd vd va vb t
  | .vsub vd va vb t => opVsub vd va vb t
  | .vmul vd va vb t => opVmul vd va vb t
  | .vmulh vd va vb t => opVmulh vd va vb t
  | .vadds vd va vb t => opVadds vd va vb t
  | .vsubs vd va vb t => opVsubs vd va vb t
  | .vmin vd va vb t => opVmin vd va vb t
  | .vmax vd va vb t => opVmax vd va vb t
  | .vabs vd va t => opVabs vd va t
  | .vneg vd va t => opVneg vd va t
  | .vand vd va vb t => opVand vd va vb t
  | .vor vd va vb t => opVor vd va vb t
  | .vxor vd va vb t => opVxor vd va vb t
  | .vnot vd va t => opVnot vd va t
  | .vshl vd va vb t => opVshl vd va vb t
  | .vshr vd va vb t => opVshr vd va vb t
  | .vsra vd va vb t => opVsra vd va vb t
  | .vavg vd va vb t => opVavg vd va vb t
  | .vabsd vd va vb t => opVabsd vd va vb t
  | .vclz vd va t => opVclz vd va t
  | .vpopc vd va t => opVpopc vd va t
  | .vmov vd va t => opVmov vd va t
  | .vrsum vd va t => opVrsum vd va t
  | .vrmax vd va t => opVrmax vd va t
  | .vrmin vd va t => opVrmin vd va t
  | .vperm vd va vb t => opVperm vd va vb t
  | .vzip vd va vb t => opVzip vd va vb t
  | .vunzip vd va vb t => opVunzip vd va vb t
  | .vmaxexp va t => opVmaxexp va t
  | .vseedx vd va t => opVseedx vd va t
  | .vseedc vd va vb t => opVseedc vd va vb t
  | .vfma vd va vb t vc rm => opVfma vd va vb t vc rm
  | .vfms vd va vb t vc rm => opVfms vd va vb t vc rm
  | .vfnma vd va vb t vc rm => opVfnma vd va vb t vc rm
  | .vfnms vd va vb t vc rm => opVfnms vd va vb t vc rm
  | .vsel vd va vb t ps => opVsel vd va vb t ps
  | .vaddr vd va vb t rm => opVaddr vd va vb t rm
  | .vmulr vd va vb t rm => opVmulr vd va vb t rm
  | .vcvt vd va ts td sc rm part => opVcvt vd va ts td sc rm part
  | .vaddi vd va t imm => opVaddi vd va t imm
  | .vmuli vd va t imm => opVmuli vd va t imm
  | .vandi vd va t imm => opVandi vd va t imm
  | .vori vd va t imm => opVori vd va t imm
  | .vshli vd va t imm => opVshli vd va t imm
  | .vshri vd va t imm => opVshri vd va t imm
  | .vsrai vd va t imm => opVsrai vd va t imm
  | .vbcst vd t imm => opVbcst vd t imm
  | .vcmpeq pd va vb t => opVcmpeq pd va vb t
  | .vcmpne pd va vb t => opVcmpne pd va vb t
  | .vcmplt pd va vb t => opVcmplt pd va vb t
  | .vcmple pd va vb t => opVcmple pd va vb t
  | .vcmpgt pd va vb t => opVcmpgt pd va vb t
  | .vcmpge pd va vb t => opVcmpge pd va vb t
  | .vcmpun pd va vb t => opVcmpun pd va vb t
  | .vclass pd va vb t => opVclass pd va vb t
  | .vpand pd pa pb => opVpand pd pa pb
  | .vpor pd pa pb => opVpor pd pa pb
  | .vpxor pd pa pb => opVpxor pd pa pb
  | .vpandn pd pa pb => opVpandn pd pa pb
  | .vexp vd va t => opVexp vd va t
  | .vexp2 vd va t => opVexp2 vd va t
  | .vlog vd va t => opVlog vd va t
  | .vlog2 vd va t => opVlog2 vd va t
  | .vrcp vd va t => opVrcp vd va t
  | .vrsq vd va t => opVrsq vd va t
  | .vsqrt vd va t => opVsqrt vd va t
  | .vtanh vd va t => opVtanh vd va t
  | .vsigm vd va t => opVsigm vd va t
  | .vsilu vd va t => opVsilu vd va t
  | .vgelu vd va t => opVgelu vd va t
  | .vsin vd va t => opVsin vd va t
  | .vcos vd va t => opVcos vd va t
  | .verf vd va t => opVerf vd va t
  | .vtbld h va vb => opVtbld h va vb
  | .vtwr vd x k td ts rm => opVtwr vd x k td ts rm
  | .vtrd vd x k td ts rm => opVtrd vd x k td ts rm
  | .vld vd ab sp pi i => opVld vd ab sp pi i
  | .vst vd ab sp pi i => opVst vd ab sp pi i
  | .vldb vd ab sp pi i => opVldb vd ab sp pi i
  | .vldnt vd ab sp pi i => opVldnt vd ab sp pi i
  | .vstnt vd ab sp pi i => opVstnt vd ab sp pi i
  | .vgath vd ab sp vi es => opVgath vd ab sp vi es
  | .vscat vd ab sp vi es => opVscat vd ab sp vi es
  | .vscata vd ab sp vi es => opVscata vd ab sp vi es
  | .vwiden vd va t => opVwiden vd va t
  | .vnarrow vd va vb t => opVnarrow vd va vb t
  | .vpack vd va vb t => opVpack vd va vb t
  | .vunpack vd va t => opVunpack vd va t
  | .vsumw vd va vb t => opVsumw vd va vb t
  | .vdot2 vd va vb t => opVdot2 vd va vb t
  | .vscale vd va vb t => opVscale vd va vb t
  | .vround vd va t => opVround vd va t
  | .vfloor vd va t => opVfloor vd va t
  | .vslide vd va vb t => opVslide vd va vb t
  | .vrev vd va t => opVrev vd va t

/-- Operations of the matrix class. -/
def semMatrix : MatrixOp → SlotOp
  | .mnop => opMnop
  | .mcbset s sel => opMcbset s sel
  | .mlut ht hw row col sh clr => opMlut ht hw row col sh clr
  | .mlutg ht hw row col sh clr hp hs => opMlutg ht hw row col sh clr hp hs
  | .mluts ht hw row col sh clr => opMluts ht hw row col sh clr
  | .mlutsg ht hw row col sh clr hp hs => opMlutsg ht hw row col sh clr hp hs
  | .maclr row col sh => opMaclr row col sh
  | .mmask ht => opMmask ht
  | .mstat s n => opMstat s n
  | .mcbget s sel => opMcbget s sel
  | .macrd vd row col => opMacrd vd row col
  | .macwr vd row col => opMacwr vd row col
  | .mbias vd row col => opMbias vd row col
  | .mreset => opMreset
  | .mlutk ht hw row col sh clr => opMlutk ht hw row col sh clr
  | .mlutgk ht hw row col sh clr hp hs => opMlutgk ht hw row col sh clr hp hs

/-- Operations of the copy class. -/
def semCopy : Bool → CopyOp → SlotOp
  | _, .ynop => opYnop
  | u, .ycopy ab pi lock sc => opYcopy u ab pi lock sc
  | u, .ypush ab pi lock sc => opYpush u ab pi lock sc
  | u, .yacc ab pi lock sc => opYacc u ab pi lock sc
  | u, .yaccp ab pi lock sc => opYaccp u ab pi lock sc
  | u, .ymx4 ab pi lock sc => opYmx4 u ab pi lock sc
  | u, .ysadd ab pi lock sc => opYsadd u ab pi lock sc
  | u, .yatom ab pi lock sc => opYatom u ab pi lock sc
  | u, .ypref ab pi lock sc => opYpref u ab pi lock sc
  | u, .yfill ab pi lock sc => opYfill u ab pi lock sc
  | u, .yrem ab pi lock sc => opYrem u ab pi lock sc
  | u, .ygath ab pi lock sc => opYgath u ab pi lock sc
  | u, .yscat ab pi lock sc => opYscat u ab pi lock sc
  | u, .yline ab pi lock sc => opYline u ab pi lock sc
  | u, .ycancel => opYcancel u
  | u, .yldv ab pi vd => opYldv u ab pi vd

/-- The operation of a slot. -/
def semOp : Op → SlotOp
  | .c o => semControl o
  | .s o => semScalar o
  | .a o => semAddress o
  | .v _ o => semVector o
  | .m o => semMatrix o
  | .y u o => semCopy u o

/-- A fetched slot decoded in its thread's generation and profile (R26; 02_encodings.md R60 to R62). -/
def readySlot (p : Profile) (x : Nat × Nat × Option Nat) : Nat × Except Cause Ready :=
  (x.1, match decodeFor p (Fin.ofNat 8 x.1) x.2.1 x.2.2 with
    | .error r => .error (Reject.cause r)
    | .ok y => .ok ⟨x.1, y.g, semOp y.op⟩)

/-- The bundle at a core's pc in memory. -/
def memFetcher (d : Fin 4) (c : Fin 68) : Fetcher where
  head s := fetchHead d c s
  rest w s :=
    match s.fetchBundle d c w with
    | (.error f, s) => (.error f, s)
    | (.ok ws, s) =>
      let p := (s.core d c).profile c
      (.ok ((bundleSlots p.gen ws).map (readySlot p)), s.keepCode d c ws)

/-- BUNDLE_ISSUE at a core. -/
def bundleIssue (d : Fin 4) (c : Fin 68) (s : State) : State := issueWith (memFetcher d c) d c s

def execBundleIssue (d : Fin 4) (c : Fin 68) (s : State) : Host.Outcome State Fault Refusal := powered (bundleIssue d c) s

end Sys2Proof.Machine
end

