-- ==== Sys2Proof/Machine/Crypto.lean ====
section
/-! DEFINITION. SHA-256, and RSASSA-PKCS1-v1_5 verification with it (14_package.md R383, R386), as FIPS 180-4 and RFC 8017 define them
(PRESUMED, log 18). -/

namespace Sys2Proof.Machine

open Sys2Proof

/-- Big-endian value of a list of bytes. -/
def beOf (l : List Byte) : Nat := l.foldl (fun v b => 256 * v + b.toNat) 0

/-- The `n` bytes of a value, highest first. -/
def beBytes (v : Nat) (n : Nat) : List Byte := (bytesOf v n).reverse

def shaK : List W32 :=
  [0x428A2F98, 0x71374491, 0xB5C0FBCF, 0xE9B5DBA5, 0x3956C25B, 0x59F111F1, 0x923F82A4, 0xAB1C5ED5] ++
  [0xD807AA98, 0x12835B01, 0x243185BE, 0x550C7DC3, 0x72BE5D74, 0x80DEB1FE, 0x9BDC06A7, 0xC19BF174] ++
  [0xE49B69C1, 0xEFBE4786, 0x0FC19DC6, 0x240CA1CC, 0x2DE92C6F, 0x4A7484AA, 0x5CB0A9DC, 0x76F988DA] ++
  [0x983E5152, 0xA831C66D, 0xB00327C8, 0xBF597FC7, 0xC6E00BF3, 0xD5A79147, 0x06CA6351, 0x14292967] ++
  [0x27B70A85, 0x2E1B2138, 0x4D2C6DFC, 0x53380D13, 0x650A7354, 0x766A0ABB, 0x81C2C92E, 0x92722C85] ++
  [0xA2BFE8A1, 0xA81A664B, 0xC24B8B70, 0xC76C51A3, 0xD192E819, 0xD6990624, 0xF40E3585, 0x106AA070] ++
  [0x19A4C116, 0x1E376C08, 0x2748774C, 0x34B0BCB5, 0x391C0CB3, 0x4ED8AA4A, 0x5B9CCA4F, 0x682E6FF3] ++
  [0x748F82EE, 0x78A5636F, 0x84C87814, 0x8CC70208, 0x90BEFFFA, 0xA4506CEB, 0xBEF9A3F7, 0xC67178F2]

def shaH : List W32 := [0x6A09E667, 0xBB67AE85, 0x3C6EF372, 0xA54FF53A, 0x510E527F, 0x9B05688C, 0x1F83D9AB, 0x5BE0CD19]

/-- A message padded to blocks of 64 bytes. -/
def shaPad (m : List Byte) : List Byte :=
  m ++ [0x80] ++ List.replicate ((119 - m.length % 64) % 64) 0 ++ beBytes (8 * m.length) 8

/-- The message schedule, last word first. -/
def shaExpand : Nat → List W32 → List W32
  | 0, w => w
  | n + 1, w =>
    let g (i : Nat) : W32 := w.getD i 0
    let s0 (x : W32) : W32 := x.rotateRight 7 ^^^ x.rotateRight 18 ^^^ (x >>> 3)
    let s1 (x : W32) : W32 := x.rotateRight 17 ^^^ x.rotateRight 19 ^^^ (x >>> 10)
    shaExpand n ((s1 (g 1) + g 6 + s0 (g 14) + g 15) :: w)

/-- The eight working variables. -/
structure ShaVars where
  a : W32
  b : W32
  c : W32
  d : W32
  e : W32
  f : W32
  g : W32
  h : W32
  deriving DecidableEq, Repr

def shaRound (x : ShaVars) (kw : W32 × W32) : ShaVars :=
  let s1 := x.e.rotateRight 6 ^^^ x.e.rotateRight 11 ^^^ x.e.rotateRight 25
  let ch := (x.e &&& x.f) ^^^ (~~~x.e &&& x.g)
  let t1 := x.h + s1 + ch + kw.1 + kw.2
  let s0 := x.a.rotateRight 2 ^^^ x.a.rotateRight 13 ^^^ x.a.rotateRight 22
  let maj := (x.a &&& x.b) ^^^ (x.a &&& x.c) ^^^ (x.b &&& x.c)
  ⟨t1 + s0 + maj, x.a, x.b, x.c, x.d + t1, x.e, x.f, x.g⟩

def shaBlock (h : List W32) (block : List Byte) : List W32 :=
  let w := (List.range 16).map fun i => BitVec.ofNat 32 (beOf ((block.drop (4 * i)).take 4))
  let w := (shaExpand 48 w.reverse).reverse
  let g (i : Nat) : W32 := h.getD i 0
  let x := (shaK.zip w).foldl shaRound ⟨g 0, g 1, g 2, g 3, g 4, g 5, g 6, g 7⟩
  [g 0 + x.a, g 1 + x.b, g 2 + x.c, g 3 + x.d, g 4 + x.e, g 5 + x.f, g 6 + x.g, g 7 + x.h]

def shaBlocks : Nat → List W32 → List Byte → List W32
  | 0, h, _ => h
  | n + 1, h, m => shaBlocks n (shaBlock h (m.take 64)) (m.drop 64)

/-- The 32 bytes of SHA-256. -/
def sha256 (m : List Byte) : List Byte :=
  let p := shaPad m
  (shaBlocks (p.length / 64) shaH p).flatMap fun w => beBytes w.toNat 4

/-- `b` squared `n` times, modulo `m`. -/
def squareMod (m : Nat) : Nat → Nat → Nat
  | 0, b => b
  | n + 1, b => squareMod m n (b * b % m)

/-- The encoded message of RSASSA-PKCS1-v1_5 with SHA-256, of 384 bytes. -/
def pkcs1Encode (digest : List Byte) : List Byte :=
  let info : List Byte := [0x30, 0x31, 0x30, 0x0D, 0x06, 0x09, 0x60, 0x86, 0x48, 0x01, 0x65, 0x03, 0x04, 0x02, 0x01, 0x05, 0x00, 0x04, 0x20]
  [0x00, 0x01] ++ List.replicate (384 - 3 - 19 - 32) 0xFF ++ [0x00] ++ info ++ digest

/-- Verifies a signature over a message under a modulus, with public exponent 65,537 = 2^16 + 1. -/
def rsaVerify (modulus : Nat) (sig : Nat) (m : List Byte) : Bool :=
  decide (sig < modulus) && squareMod modulus 16 sig * sig % modulus == beOf (pkcs1Encode (sha256 m))

end Sys2Proof.Machine
end

