-- ==== Sys2Proof/Machine/Sched.lean ====
section
/-! DEFINITION. The scheduler: starts, restores, completions, passes, operating-system commands (13_scheduling.md R343 to R362;
09_core_traps.md R262 to R267; 04_control_scalar.md R103). -/

namespace Sys2Proof.Machine

open Sys2Proof

/-- PRIO of a record. -/
def State.recPrio (s : State) (d : Fin 4) (i : Nat) : Nat := s.recField d i 0x05 1 % 8

/-- FLAGS of a record: PREEMPT and SPLOAD. -/
def State.recPreempts (s : State) (d : Fin 4) (i : Nat) : Bool := (s.recField d i 0x06 2).testBit 0
def State.recLoads (s : State) (d : Fin 4) (i : Nat) : Bool := (s.recField d i 0x06 2).testBit 1

/-- Fields of SCHEDCFG (Table 13-5). -/
def Die.admitLevel (x : Die) : Nat := bits x.schedCfg.toNat 47 40
def Die.ageStep (x : Die) : Nat := bits x.schedCfg.toNat 39 32
def Die.quantum (x : Die) : Nat := bits x.schedCfg.toNat 31 16
def Die.schedOn (x : Die) : Bool := x.schedCfg.getLsbD 0

/-- Effective priority of a candidate (R355). -/
def State.effPrio (s : State) (d : Fin 4) (r : NurRec) : Nat :=
  let step := (s.die d).ageStep
  Nat.min 7 (s.recPrio d r.idx + (if step = 0 then 0 else r.windows / step))

/-- Whether an ARMED entry is admitted in this window (R360). -/
def State.admitted (s : State) (d : Fin 4) (r : NurRec) : Bool :=
  let x := s.die d
  !x.budgetOn || decide (r.refusedWin ≥ 4) ||
    decide (256 * (x.eused.toNat + x.admSum + s.recField d r.idx 0x44 4) ≤ x.admitLevel * x.budget)

/-- The clusters in whose membership sets a record's thread stands (10_cluster.md R294). -/
def State.setClusters (s : State) (d : Fin 4) (i : Nat) : List Nat :=
  (List.range 8).filter fun k => (s.slice d k).sets.toList.any fun l => l.any fun m => m.die == d && m.idx == i

/-- CSA and the grants sh0 to sh3 saved there. -/
def State.recCsa (s : State) (d : Fin 4) (i : Nat) : Nat := s.recField d i 0x18 8
def State.savedGrants (s : State) (d : Fin 4) (i : Nat) : List Nat :=
  (List.range 4).map fun k => readLE (s.memFor d) (s.recCsa d i + 0x20 + 8 * k) 8

/-- The conditions of R357 but that of being free. -/
def State.suits (s : State) (d : Fin 4) (r : NurRec) (c : Nat) : Bool :=
  s.enabled d c && (s.recField d r.idx 0x4A 1).testBit (c / 8) && (s.recShapes d r.idx).all (fun v => (s.maxima d c).meets v) &&
    (r.st != .ready || ((s.savedGrants d r.idx).all (fun v => (s.maxima d c).fits v) && (s.setClusters d r.idx).all fun k => k == c / 8))

/-- A core that holds no thread. -/
def State.freeCore (s : State) (d : Fin 4) (c : Nat) : Bool :=
  match (s.die d).cores[c]? with
  | some k => k.run == .idle
  | none => false

/-- The core a candidate takes among `l` (R358): the one it last ran on, else the smallest M × N × KB and then the lowest number. -/
def State.chooseCore (s : State) (d : Fin 4) (r : NurRec) (l : List Nat) : Option Nat :=
  let size (c : Nat) : Nat := let x := s.maxima d c; x.m * x.n * x.kb
  let best := l.foldl (fun (b : Option Nat) c => match b with
    | none => some c
    | some e => if size c < size e then some c else some e) none
  match r.lastCore with
  | some c => if r.st == .ready && l.contains c.val then some c.val else best
  | none => best

/-- The launch record's OUTCORE and RUNS, at each start and resume (Table 13-1). -/
def State.notePlacement (s : State) (d : Fin 4) (c : Fin 68) (i : Nat) : State :=
  let r := (s.die d).recd i
  let s := s.setRec d { r with st := .running, runs := r.runs + 1, lastStart := s.hub.ptime, lastCore := some c, lwaitVa := none }
  s.dieWrite d (cellsOf ((s.die d).recAddr i + 0xEA) (outCore d c) 2 ++ cellsOf ((s.die d).recAddr i + 0xEC) (r.runs + 1) 4)

/-- A pass of the scheduler is due (R355). -/
def State.passSoon (s : State) (d : Fin 4) : State := s.modDie d fun x => { x with passDue := true }

/-- Completion of a thread that has left its core or never held one (R352, steps 2 to 4), with its exit code and final schedule cycle:
the membership sets are left, the record becomes IDLE, and DONE is decremented under the record's translation. The reserved bytes that
Table 13-1 writes as zero are written here (DESIGN CHOICE, log 72). -/
def State.endRecord (s : State) (d : Fin 4) (i code scyc : Nat) : State × Option Nat :=
  let a := (s.die d).recAddr i
  let done := s.recField d i 0x28 8
  let s := s.leaveAll d i
  let r := (s.die d).recd i
  let last := match r.lastCore with | some c => outCore d c | none => 0
  let s := s.dieWrite d (cellsOf (a + 0xE0) scyc 8 ++ cellsOf (a + 0xE8) (code % 256) 2 ++ cellsOf (a + 0xF0) 0 16)
  let s := s.dieWrite d ((cellsOf (s.recCsa d i + 5) 3 1).filter fun x => s.hasMem x.1)
  let s := (s.setRec d { NurRec.fresh i with image := r.image }).passSoon d
  if done = 0 then (s, none)
  else
    match s.recWord d i .atomic done with
    | (none, s) => (s.postEvent d ⟨2, 0, i, last, done⟩, none)
    | (some pa, s) =>
      let s := (s.bridgePass d (lineOf pa)).stepWord pa fun w => (w + 2 ^ 64 - 1) % 2 ^ 64
      (match r.st, r.lastCore with
        | .running, some c => s.noteWord (.core d c) pa
        | _, _ => s, some pa)

/-- A completion that decremented a word wakes the PARKED threads whose LWAIT names it (R356) and tests the dependences on it (R354). -/
def State.wordFell (s : State) (pa : Nat) : State :=
  (List.finRange 4).foldl (fun s d =>
    (s.die d).recs.foldl (fun s r =>
      match r.st, r.lwaitVa with
      | .parked, some va =>
        if (s.recWord d r.idx .read va.toNat).1 == some pa then (s.setRec d { r with st := .ready, lwaitVa := none }).passSoon d else s
      | .armed, _ =>
        let dep := s.recField d r.idx 0x30 8
        if dep != 0 && (s.recWord d r.idx .read dep).1 == some pa then s.testDep d r.idx else s
      | _, _ => s) s) s

/-- A thread completes (R352). -/
def State.completeRecord (s : State) (d : Fin 4) (i code scyc : Nat) : State :=
  match s.endRecord d i code scyc with
  | (s, some pa) => s.wordFell pa
  | (s, none) => s

/-- The bytes of the scratchpad image, one line at a time, under the thread's own tables (R351, step 4); none where a byte cannot be
read. -/
def State.readImage (s : State) (d : Fin 4) (c : Fin 68) (va : W64) : Nat → Nat → Bytes → Option Bytes × State
  | 0, _, m => (some m, s)
  | n + 1, off, m =>
    let a := va + BitVec.ofNat 64 off
    let k := Nat.min (64 - a.toNat % 64) (n + 1)
    if a.toNat % 64 ≠ 0 ∧ off ≠ 0 then
      -- inside a line already read
      State.readImage s d c va n (off + 1) m
    else if !canonical a then (none, s)
    else
      match s.locate (s.who d c) .read a k with
      | (.error (.refused r), s) => (none, s.logRefused r)
      | (.error (.fabRefused l), s) => (none, l.foldl State.logRefused s)
      | (.error (.reason _), s) => (none, s)
      | (.error .fabNoRoute, s) => (none, s)
      | (.error .fabUnlinked, s) => (none, s)
      | (.error (.logged _), s) => (none, s)
      | (.error .late, s) => (none, s)
      | (.ok (x, .mem), s) =>
        if s.meetsPoison d c x.pa then (none, s)
        else
          let b := (List.range k).map fun j => s.copyRead d c 0 (x.pa + j)
          let s := s.touchHome (lineOf x.pa)
          State.readImage s d c va n (off + 1) (writeBytes m off b)
      | (.ok (_, .pcie), s) =>
        State.readImage { s with fresh := s.fresh + k } d c va n (off + 1) (writeBytes m off (bytesOf (freeBytes s.fresh k) k))
      | (.ok _, s) => (none, s)

/-- The registers a thread starts with: Table 1-2, and argument k in sk and ak (R351, step 3). -/
def startRegs (args : Vector W64 8) : Regs :=
  { Regs.start with
    s := Vector.ofFn fun k => if h : k.val < 8 then args[k.val] else 0
    a := Vector.ofFn fun k => if h : k.val < 8 then args[k.val] else 0 }

def genOf (n : Nat) : Gen := match n with | 1 => .g1 | 2 => .g2 | _ => .g3

/-- THREAD_START (R351): an ARMED entry is placed on a core, and its record read again (R345); it fetches its code as it stands from now on
(11_ordering.md R320). The die waits for the translations of its own
reads of the image. -/
def State.startThread (s : State) (d : Fin 4) (c : Fin 68) (i : Nat) : State :=
  let s := s.readRec d i
  let r := (s.die d).recd i
  let f (o n : Nat) : Nat := s.recField d i o n
  let root := f 0x10 8
  let thr : Thread := ⟨i, genOf (f 0x04 1), bits root 11 0, bits root 45 12 * 4096, BitVec.ofNat 64 (f 0x20 8), f 0x18 8⟩
  let img := BitVec.ofNat 64 (f 0x38 8)
  let len := if s.recLoads d i then f 0x40 4 else 0
  let s := (s.modDie d fun x => { x with admSum := x.admSum + f 0x44 4 }).notePlacement d c i
  let s := s.acquireLines d c .p
  let s := s.modCore d c fun k =>
    { Core.start with run := .running, pc := BitVec.ofNat 64 (f 0x08 8), regs := startRegs r.args, thr := thr, l1 := k.l1, tlb := k.tlb, tlbOld := k.tlbOld, dbg := k.dbg }
  match ({ s with late := false }).readImage d c img len 0 [] with
  | (some m, t) => { t with late := s.late }.modCore d c fun k => { k with spad := m, full := List.range (len / 4) }
  | (none, t) => (({ t with late := s.late }.modCore d c Core.vacate).recEvent d i 3 0 0).completeRecord d i 0xE1 0

/-- THREAD_RESTORE (09_core_traps.md R264, R266): the saved thread takes a core, or its restore is refused. The core drops what its caches held
of old, as at a start, so that the thread reads what it would have read without the pre-emption (11_ordering.md R305, R312). -/
def State.restoreThread (s : State) (d : Fin 4) (c : Fin 68) (i : Nat) : State :=
  let r := (s.die d).recd i
  let csa := s.recCsa d i
  let s := s.bridgeDrain d
  let m := subRange s.mem csa 0x100000
  match r.saved with
  | none => s
  | some k0 =>
    if restoreRefused m then
      let s := s.dieWrite d ((cellsOf (csa + 5) 2 1).filter fun x => s.hasMem x.1)
      (s.setRec d { r with st := .trapped }).recEvent d i 4 0 0
    else
      let s := s.notePlacement d c i
      let s := s.setRec d { (s.die d).recd i with saved := none }
      let s := s.acquireLines d c .p
      let s := s.modCore d c fun k =>
        { k0.restoreFrom m with l1 := k.l1, tlb := k.tlb, tlbOld := k.tlbOld, dbg := k.dbg, code := .empty, waitc := none }
      ([0, 1] : List (Fin 2)).foldl (fun s y =>
        let e := (s.core d c).eng
        match e.yq[y] with
        | [] => s
        | cmd :: _ => Yc.replay ⟨d, c, y, cmd⟩ (e.spill[y]).length s) s

/-- A candidate that a pass looks at, with its effective priority. -/
structure Cand where
  eff : Nat
  arm : Nat
  idx : Nat
  deriving DecidableEq, Repr

def Cand.before (a b : Cand) : Bool :=
  decide (a.eff > b.eff) || (a.eff == b.eff && (decide (a.arm < b.arm) || (a.arm == b.arm && decide (a.idx < b.idx))))

def insertCand (x : Cand) : List Cand → List Cand
  | [] => [x]
  | y :: l => if x.before y then x :: y :: l else y :: insertCand x l

/-- The candidates of a die in the order of R355; dependence only, admission comes with the place. -/
def State.candidates (s : State) (d : Fin 4) : List Cand :=
  (s.die d).recs.foldr (fun r l =>
    let x : Cand := ⟨s.effPrio d r, r.armTime.toNat, r.idx⟩
    match r.st with
    | .armed => if r.depMet then insertCand x l else l
    | .ready => insertCand x l
    | _ => l) []

/-- What a pass has done so far: the state, cores reserved, candidates left without a core. -/
structure Pass where
  s : State
  reserved : List Nat
  left : List Cand

/-- One candidate of a pass (R355, R358, R360). -/
def Pass.visit (d : Fin 4) (p : Pass) (x : Cand) : Pass :=
  let s := p.s
  let r := (s.die d).recd x.idx
  if r.st == .armed && !s.admitted d r then { p with s := s.setRec d { r with refusedNow := true } }
  else
    let fit := (List.range 64).filter fun c => s.suits d r c && !p.reserved.contains c
    match s.chooseCore d r (fit.filter (s.freeCore d)) with
    | some c =>
      let c : Fin 68 := Fin.ofNat 68 c
      { p with s := if r.st == .ready then s.restoreThread d c x.idx else s.startThread d c x.idx }
    | none =>
      { p with reserved := if x.eff = 7 then p.reserved ++ fit.filter (fun c => !s.freeCore d c) else p.reserved, left := p.left ++ [x] }

/-- A thread that may be parked: in thread mode, its bundle waiting in LWAIT, since when, and for which word (R356). -/
def Core.parkable (k : Core) : Option (Nat × W64) :=
  match k.run, k.handler, k.waitc with
  | .running, false, some w => if k.dbg.frozen then none else w.lwait.map fun va => (w.since, va)
  | _, _, _ => none

/-- Parks the thread of a core (R356, R262): its record becomes PARKED. While what the save must wait for is still to come, a pass stays due. -/
def State.park (s : State) (d : Fin 4) (c : Fin 68) (va : W64) : State :=
  let k := s.core d c
  let t : Trap := { cause := .preempt, async := true }
  match s.saveContext d c .parked 1 (t.frame k) with
  | some s => s.setRec d { (s.die d).recd k.thr.idx with lwaitVa := some va }
  | none => s.passSoon d

/-- A thread that priority may pre-empt for a candidate of effective priority `eff`: its priority and its last start (R353, R356). -/
def State.preemptable (s : State) (d : Fin 4) (c eff : Nat) : Option (Nat × Nat) :=
  match (s.die d).cores[c]? with
  | none => none
  | some k =>
    let r := (s.die d).recd k.thr.idx
    if k.run == .running && s.recPreempts d k.thr.idx && decide (s.recPrio d k.thr.idx < eff) &&
        decide (s.hub.ptime.toNat ≥ r.lastStart.toNat + 100 * (s.die d).quantum) then some (s.recPrio d k.thr.idx, r.lastStart.toNat)
    else none

/-- Makes room for one candidate left without a core (R356): parks the longest waiter, else pre-empts the lowest priority with the latest
start. `taken` are the cores this pass has already acted on. -/
def State.makeRoom (s : State) (d : Fin 4) (taken : List Nat) (x : Cand) : State × List Nat :=
  let r := (s.die d).recd x.idx
  let fit := (List.range 64).filter fun c => s.suits d r c && !s.freeCore d c && !taken.contains c
  let waiters := fit.filterMap fun c => ((s.die d).cores[c]?).bind fun k => k.parkable.map fun w => (c, w)
  let longest := waiters.foldl (fun (b : Option (Nat × Nat × W64)) w => match b with
    | none => some w
    | some e => if w.2.1 < e.2.1 then some w else some e) none
  match longest with
  | some (c, _, va) => (s.park d (Fin.ofNat 68 c) va, taken ++ [c])
  | none =>
    let victims := fit.filterMap fun c => (s.preemptable d c x.eff).map fun v => (c, v)
    let worst := victims.foldl (fun (b : Option (Nat × Nat × Nat)) v => match b with
      | none => some v
      | some e => if v.2.1 < e.2.1 || (v.2.1 == e.2.1 && e.2.2 < v.2.2) then some v else some e) none
    match worst with
    | some (c, _) => (s.modCore d (Fin.ofNat 68 c) fun k => { k with preempt := true }, taken ++ [c])
    | none => (s, taken)

/-- SCHEDULER_PASS (R355, R356), once boot has released the cores (14_package.md R381): made when a core has become free, an arm, a wake or a window
boundary has come, and not else. -/
def State.pass (s : State) (d : Fin 4) : State :=
  if !(s.die d).passDue || s.hub.boot != .done then s
  else
    let s := s.modDie d fun x => { x with passDue := false }
    if !(s.die d).schedOn then s
    else
    let p := (s.candidates d).foldl (Pass.visit d) ⟨s, [], []⟩
    (p.left.foldl (fun (a : State × List Nat) x => a.1.makeRoom d a.2 x) (p.s, [])).1

/-- Nothing of a halted thread is outstanding: every write has landed or needs only cycles to pass, every command has left its engine, no
asynchronous cause waits (04_control_scalar.md R103). A pre-emption that came too late counts for nothing (R353). -/
def State.haltedDone (s : State) (d : Fin 4) (c : Fin 68) : Bool :=
  let k := s.core d c
  k.run == .halted && !k.dbg.frozen && k.eng.mq.isEmpty && (k.eng.yq.toList.all fun q => q.isEmpty) && !({ k with preempt := false } : Core).asyncPending &&
    !(s.hub.fabWrites.any fun w => w.die == d && w.core == c)

/-- Every write on its way lands, each at its own cycle, while the thread's cycle count stands (04_control_scalar.md R103). -/
def Core.landAll (k : Core) : Core := { k.drainPends with cyc := k.cyc, hcyc := k.hcyc }

/-- THREAD_COMPLETION (R352): the writes of a halted thread land, and it completes once R103 holds; it leaves its sets before the release
(10_cluster.md R294). -/
def State.threadDone (s : State) (d : Fin 4) (c : Fin 68) : State :=
  let k := s.core d c
  if k.run ≠ .halted ∨ k.dbg.frozen then s
  else
    let s := s.setCore d c k.landAll
    if !s.haltedDone d c then s
    else
      match s.settleAll d c with
      | none => s
      | some t =>
        let k := t.core d c
        if !k.eng.btoks.isEmpty then s
        else
          let t := ((t.leaveAll d k.thr.idx).releaseLines d c .p).statFlushAll d c
          (t.modCore d c Core.vacate).completeRecord d k.thr.idx 0 (k.cyc - 1)

/-- HALTED_CAUSE_DELIVERY (04_control_scalar.md R103): a cause of a halted thread goes to the operating system by a save with STATE 2. -/
def State.deliverHalted (s : State) (d : Fin 4) (c : Fin 68) : State :=
  let k := s.core d c
  if k.run ≠ .halted ∨ k.dbg.frozen then s
  else
    match ({ k with preempt := false } : Core).takeAsync with
    | none => s
    | some (t, k') =>
      match s.settleLoads d c with
      | none => s
      | some s0 =>
        let t := { t with more := k'.asyncPending }
        let k1 := s0.core d c
        let s1 := s0.setCore d c { k1 with eng := { k1.eng with mq := k'.eng.mq, errs := k'.eng.errs, lostErr := k'.eng.lostErr } }
        (s1.saveContext d c .trapped 2 (t.frame k1)).getD s

/-- An ended thread completes without issuing (Table 13-5, R352); its commands are gone with it. -/
def State.endSaved (s : State) (d : Fin 4) (r : NurRec) (code : Nat) : State :=
  s.completeRecord d r.idx code (match r.saved with | some k => k.cyc - 1 | none => 0)

/-- The core that runs a record's thread. -/
def State.coreOf (s : State) (d : Fin 4) (i : Nat) : Option (Fin 68) :=
  (List.finRange 68).find? fun c => decide (c.val < 64) && (s.core d c).run != .idle && (s.core d c).thr.idx == i

/-- A TRAPPED thread stays TRAPPED while the die holds the record of its event, of kind 1 or, after a refused restore, of kind 4 (R362;
DEDUCED, log 73). -/
def State.trapHeld (s : State) (d : Fin 4) (i : Nat) : Bool :=
  ((s.die d).recd i).st == .trapped && (s.die d).events.any fun e => (e.kind == 1 || e.kind == 4) && e.idx == i

/-- NRCMD operation 1: a TRAPPED record becomes READY. -/
def State.nrResume (s : State) (d : Fin 4) (i : Nat) : State :=
  let r := (s.die d).recd i
  if r.st = .trapped ∧ !s.trapHeld d i then (s.setRec d { r with st := .ready }).passSoon d else s

/-- NRCMD operation 2: ends a TRAPPED, PARKED or READY thread; codes outside 0x01 to 0xDF have no effect (R359). -/
def State.nrEnd (s : State) (d : Fin 4) (i code : Nat) : State :=
  let r := (s.die d).recd i
  if code = 0 ∨ code ≥ 0xE0 ∨ s.trapHeld d i then s
  else if r.st = .trapped ∨ r.st = .parked ∨ r.st = .ready then s.endSaved d r code
  else s

/-- NRCMD operation 3: removes an ARMED entry; DONE is unchanged. -/
def State.nrRemove (s : State) (d : Fin 4) (i : Nat) : State :=
  if ((s.die d).recd i).st = .armed then s.setRec d (.fresh i) else s

/-- NRCMD operation 4: a RUNNING thread is pre-empted at its next boundary; one whose HALT has issued is not (R353). -/
def State.nrPreempt (s : State) (d : Fin 4) (i : Nat) : State :=
  if ((s.die d).recd i).st = .running then
    match s.coreOf d i with
    | some c => if (s.core d c).run = .running then s.modCore d c fun k => { k with preempt := true } else s
    | none => s
  else s

/-- A write to NRCMD (Table 13-5, R362): reserved bits and unknown operations have no effect. -/
def State.nrcmd (s : State) (d : Fin 4) (v : W64) : State :=
  let n := v.toNat
  let i := bits n 11 0
  if bits n 59 24 ≠ 0 ∨ bits n 15 12 ≠ 0 then s
  else
    match bits n 63 60 with
    | 1 => s.nrResume d i
    | 2 => s.nrEnd d i (bits n 23 16)
    | 3 => s.nrRemove d i
    | 4 => s.nrPreempt d i
    | _ => s

end Sys2Proof.Machine
end

