-- ==== Sys2Proof/Machine/Fabric.lean ====
section
/-! DEFINITION. The Canopy switch and the home's side of the fabric: merges, rounds, acknowledgements, inbound accesses, fabric registers
(15_fabric.md R403 to R418). -/

namespace Sys2Proof.Machine

open Sys2Proof

/-- op of a window on two elements (R413): INT32 exactly modulo 2^32 or the signed maximum; FP32 and BF16 rounded to nearest, or the maximum
of 03_numbers.md R87. -/
def winOp (w : W64 × W64) (a b : Nat) : Nat :=
  if winType w = 0 then
    if winMax w then (if sInt 32 a < sInt 32 b then b else a) else (a + b) % 2 ^ 32
  else
    let f := if winType w = 1 then Fmt.fp32 else Fmt.bf16
    let x := f.decode a
    let y := f.decode b
    (f.round .rne (if winMax w then x.max y else x.add y)).1

/-- Merges the elements of two contributions to one line: an element present in both becomes op of the two (R413). -/
def mergeElems (w : W64 × W64) (a b : Contribution) : BitVec 512 :=
  let z := winElem w
  let has (c : Contribution) (i : Nat) : Bool := c.en.getLsbD (z * i)
  let val (c : Contribution) (i : Nat) : Nat := elemAt c.data.toNat (8 * z) i
  BitVec.ofNat 512 (packElems (8 * z) ((List.range (64 / z)).map fun i =>
    if has a i && has b i then winOp w (val a i) (val b i) else if has a i then val a i else if has b i then val b i else 0))

def Contribution.merge (w : W64 × W64) (a b : Contribution) : Contribution :=
  { a with count := a.count + b.count, en := a.en ||| b.en, data := mergeElems w a b, srcs := a.srcs ++ b.srcs, pkgs := a.pkgs ++ b.pkgs }

/-- Contributions of one source for one package over one route leave in the order sent (R409). -/
def State.sentBefore (s : State) (x y : Contribution) : Bool :=
  (x.pkgs.any fun p => y.pkgs.contains p) && fabPkg x.line == fabPkg y.line && s.portOf x.route == s.portOf y.route

/-- SWITCH_MERGE (R413): contributions `i` and `j` held in this switch become one at `i`, when they are to one line of one window, their counts
together do not exceed EXPECT, and the one that moves passes none of its own sources (R409). -/
def State.switchMerge (s : State) (i j : Nat) : State :=
  match s.hub.contribs[i]?, s.hub.contribs[j]? with
  | some a, some b =>
    let w := s.hub.fabRed[a.window]
    if i ≠ j ∧ s.windowOf a.line = some a.window ∧ a.window = b.window ∧ a.line = b.line ∧ a.count + b.count ≤ winExpect w ∧
        !(((s.hub.contribs.take (Nat.max i j)).drop (Nat.min i j + 1)).any fun y => s.sentBefore y b) then
      s.modHub fun h => { h with contribs := listDrop (listSet h.contribs i (a.merge w b)) j }
    else s
  | _, _ => s

/-- What the home writes for one closed line: the present elements, merged with memory under MODE 1 (R413). -/
def State.roundCells (s : State) (w : W64 × W64) (e : Contribution) : Bytes :=
  let z := winElem w
  let a := e.line % 2 ^ 40
  (List.range (64 / z)).flatMap fun i =>
    if e.en.getLsbD (z * i) then
      let x := elemAt e.data.toNat (8 * z) i
      cellsOf (a + z * i) (if winCombine w then winOp w (readLE s.mem (a + z * i) z) x else x) z
    else []

/-- ROUND_CLOSE (R413): the line is written, then one arrival at NOTIFY; a count above EXPECT sets OVERRUN and is a machine check of
kind 7. -/
def State.closeRound (s : State) (e : Contribution) : State :=
  let w := s.hub.fabRed[e.window]
  let s := s.invalidateSlices (lineOf (e.line % 2 ^ 40))
  let s := s.homeWrite (s.roundCells w e)
  let n := winNotify w
  let s := (s.stepWord n barArrive).noteWord (.fabric e.src) n
  if e.count > winExpect w then
    let s := s.modHub fun h => { h with fabRed := h.fabRed.set e.window (w.1, w.2 ||| 0x4000000000000000) }
    s.machineCheck (s.ownerDie (e.line % 2 ^ 40)) 7 (0x100 + fabPkg e.line) e.line
  else s

/-- A contribution is merged into its line's open entry at this package, its home (R413, R414); the entry keeps the latest source. -/
def State.mergeHome (s : State) (x : Contribution) : State :=
  match s.windowOf x.line with
  | none =>
    let s := s.modHub fun h => { h with fabDrop := (h.fabDrop + 1) &&& 0xFFFFFFFF }
    s.machineCheck (s.ownerDie (x.line % 2 ^ 40)) 7 (0x100 + fabPkg x.line) x.line
  | some i =>
    let w := s.hub.fabRed[i]
    let x := { x with window := i }
    let e := match s.hub.openEntries.find? fun e => e.window == i && e.line == x.line with
      | some e => { e.merge w x with src := x.src }
      | none => x
    let s := s.modHub fun h => { h with openEntries := h.openEntries.filter fun e => !(e.window == i && e.line == x.line) }
    if e.count ≥ winExpect w then s.closeRound e else s.modHub fun h => { h with openEntries := h.openEntries ++ [e] }

/-- The fabric writes of a contribution that is lost end their commands with a status (R408, R416). -/
def State.loseWrites (s : State) (srcs : List Nat) (st : Nat) : State :=
  let lost := s.hub.fabWrites.filter fun w => srcs.contains w.id
  let s := s.modHub fun h => { h with fabWrites := h.fabWrites.filter fun w => !srcs.contains w.id }
  lost.foldl (fun s w => s.modCore w.die w.core fun k =>
    { k with eng := { k.eng with yq := k.eng.yq.map fun q => q.map fun y => if w.cmd == some y.id then y.end st else y } }) s

/-- A contribution reaches this package as its home, and is checked there as master 81 (R408); where no link leads to the home's die it is
answered as uncorrectable (14_package.md R365). -/
def State.reachHome (s : State) (x : Contribution) : State :=
  if !s.hubRoute (s.ownerDie (x.line % 2 ^ 40)).val then s.loseWrites x.srcs 0x09
  else if s.inboundOk x.line true then s.mergeHome x
  else (s.logRefused (s.inboundRefusal x.line .write)).loseWrites x.srcs 0x06

/-- HOME_MERGE: a contribution held in this switch goes to its home, here or in another package, by the route in force when it entered
(R409, R410); or one from another package enters the switch, where it may be merged with others, or reaches its home here behind those of its
source that the switch holds (R409, R413). One whose
home has no route left ends its command with status 0x08 (R416). -/
def State.homeMerge (s : State) (m : Merge) : State :=
  match m with
  | .entered src line count en data =>
    if s.isFabric line then
      s.modHub fun h => { h with contribs := h.contribs ++
        [⟨(s.windowOf line).getD 0, lineOf line, count, en, data, [], src, s.routeWord (fabPkg line), [src]⟩] }
    else s
  | .arrived src line count en data =>
    if s.isFabric line && fabPkg line == s.pkgId && !(s.hub.contribs.any fun y => y.pkgs.contains src && fabPkg y.line == s.pkgId) then
      s.reachHome ⟨0, lineOf line, count, en, data, [], src, 0, [src]⟩
    else s
  | .held n =>
    match s.hub.contribs[n]? with
    | none => s
    | some x =>
      if (s.hub.contribs.take n).any fun y => s.sentBefore y x then s
      else
        let t := s.modHub fun h => { h with contribs := listDrop h.contribs n }
        if fabPkg x.line = s.pkgId then t.reachHome x else if (s.portOf x.route).isSome then t else t.loseWrites x.srcs 0x08

/-- FABRIC_WRITE_ACK (R407, R414): write `n` is performed at every scope; not while the switch still holds a contribution that carries it. -/
def State.fabricAck (s : State) (n : Nat) : State :=
  if s.hub.contribs.any fun x => x.srcs.contains n then s
  else s.modHub fun h => { h with fabWrites := h.fabWrites.filter fun w => w.id != n }

/-- The lines that `n` bytes from an address touch. -/
def touched (a n : Nat) : List Nat := (List.range ((a % 64 + n + 63) / 64)).map fun i => lineOf a + 64 * i

/-- The first line of an inbound access of a master (local number) that the tables of its die refuse, with that die (R408; 12_die.md
R338); an address without memory is refused as well (12_die.md R322). -/
def State.inboundRefused (s : State) (localNo : Nat) (write : Bool) (pa n : Nat) : Option Refused :=
  ((touched pa n).find? fun a =>
      !(s.hasMem a && (s.die (s.ownerDie a)).permits (masterOf (s.ownerDie a) localNo) a write)).map fun a =>
    ⟨s.ownerDie a, if write then .write else .read, masterOf (s.ownerDie a) localNo, Nat.max a pa⟩

/-- Whether the Hub still has a route to the dies that own the lines of an inbound access (14_package.md R365). -/
def State.inboundReach (s : State) (pa n : Nat) : Bool := (touched pa n).all fun a => !s.hasMem a || s.hubRoute (s.ownerDie a).val

/-- An access from outside to memory of this package: served at its home, or refused, logged and without effect (12_die.md R339). One that no
link leads to is answered as uncorrectable, without effect (14_package.md R365). -/
def State.inboundAccess (s : State) (localNo : Nat) (write : Bool) (pa : Nat) (data : List Byte) : State :=
  if !s.inboundReach pa data.length then s
  else match s.inboundRefused localNo write pa data.length with
  | some r => s.logRefused r
  | none => if write then s.homeWrite (cellsAt pa data) else (touched pa data.length).foldl State.touchHome s

/-- One YATOM record of another package (R415, R408; 08_core_memory.md R245): refused, or performed at its home; a poisoned word takes none, nor
does one that no link leads to (14_package.md R365). -/
def State.inboundAtomic (s : State) (src : Nat) (x : Nat × Nat × Bool × BitVec 64) : State :=
  let pa := x.1 % 2 ^ 40
  let n := if x.2.2.1 then 8 else 4
  if !s.inboundReach pa n then s
  else if !s.inboundOk pa true then s.logRefused (s.inboundRefusal pa .atomic)
  else
    let s := s.invalidateSlices (lineOf pa)
    if s.poisoned pa then s else (s.amoHome pa (amoOf x.2.1) n x.2.2.2.toNat 0).2.noteWord (.fabric src) pa

/-- FABRIC_INBOUND_ACCESS (R405, R408, R415). -/
def State.fabricInbound (s : State) (src pa : Nat) (x : Inbound) : State :=
  if !s.fabricOn then s
  else
    match x with
    | .read n => s.inboundAccess 81 false (pa % 2 ^ 40) (List.replicate n 0)
    | .write data => (s.inboundAccess 81 true (pa % 2 ^ 40) data).noteLines (.fabric src) (touched (pa % 2 ^ 40) data.length)
    | .atomics l => l.foldl (fun s x => s.inboundAtomic src (pa + x.1, x.2)) s

/-- A reduction window register that may not be enabled (R411): TYPE 3, EXPECT 0; at its home, NOTIFY outside memory, or more than 256 KB
enabled there. -/
def State.windowRefused (s : State) (n : Fin 16) (w : W64 × W64) : Bool :=
  let others := (List.finRange 16).foldl (fun m i =>
    let x := s.hub.fabRed[i]
    if i ≠ n ∧ winEn x ∧ winHome x = s.pkgId then m + winBytes x else m) 0
  winType w == 3 || winExpect w == 0 ||
    (winHome w == s.pkgId && (!s.hasMem (winNotify w) || decide (others + winBytes w > 0x40000)))

/-- FABRED_WRITE of one 8-byte half (Table 15-1, R411, R416): OVERRUN is W1C; a setting that may not be enabled leaves EN at 0, and a window
that ends up disabled loses its open entries. -/
def State.writeWindow (s : State) (n : Fin 16) (upper : Bool) (v : W64) : State :=
  let old := s.hub.fabRed[n]
  let w : W64 × W64 :=
    if upper then (old.1, (v &&& 0x8FFFF0FFFFFFFFF8) ||| (old.2 &&& ~~~v &&& 0x4000000000000000))
    else (v &&& 0x000000FFFFFF0003, old.2)
  let w := if winEn w && s.windowRefused n w then (w.1, w.2 &&& 0x7FFFFFFFFFFFFFFF) else w
  s.modHub fun h => { h with
    fabRed := h.fabRed.set n w
    openEntries := if winEn w then h.openEntries else h.openEntries.filter fun e => e.window != n }

/-- ROUTE_WRITE (Table 15-4). -/
def State.writeRoute (s : State) (n : Fin 15) (v : W64) : State :=
  s.modHub fun h => { h with route := h.route.set n (v &&& 0x8787) }

/-- FABCFG_WRITE (Table 15-3): EN is held at 0 while PKGID is 15. On a bare die, which has no Hub, this and the other fabric registers stand for
what the customer's package supplies (00_scope.md R2; DESIGN CHOICE, log 76). -/
def State.writeFabCfg (s : State) (v : W64) : State :=
  s.modHub fun h => { h with fabCfg := if v &&& 0xF = 0xF then v &&& 0x8F else v &&& 0x9F }

/-- CANOPY_PORT_DOWN (R416): UP and WIDTH read 0, and a machine check of kind 3. Hub machine checks go to die 0 (DEDUCED, log 19). -/
def State.portDown (s : State) (p : Fin 8) : State :=
  if (s.hub.fabPort[p]).getLsbD 1 then
    (s.modHub fun h => { h with fabPort := h.fabPort.set p (h.fabPort[p] &&& 0xF001) }).machineCheck 0 3 (0x200 + p.val) 0
  else s

/-- PORT_TRAIN (R404, R417): an enabled port comes up at a width with a peer, and PTIME is aligned to that of the lowest-numbered package
that can then be reached, given as the reference brings it. -/
def State.portTrain (s : State) (p : Fin 8) (peer : Fin 16) (width : Fin 4) (ptime : W64) : State :=
  let old := s.hub.fabPort[p]
  if !old.getLsbD 0 then s
  else if width = 0 then s.modHub fun h => { h with fabPort := h.fabPort.set p 0xF001 }
  else
    let s := s.modHub fun h => { h with fabPort := h.fabPort.set p (BitVec.ofNat 64 (peer.val * 2 ^ 12 + width.val * 2 ^ 4 + 3)) }
    if decide (peer.val < s.pkgId) || (List.range s.pkgId).any s.routeTo then s.modHub fun h => { h with ptime := ptime } else s

end Sys2Proof.Machine
end

