-- ==== Sys2Proof/Machine/Package.lean ====
section
/-! DEFINITION. The package: reset and boot, Taproot starts, the host, the trigger, links and memory errors, fuses and attestation, heat
(00_scope.md R7 to R9; 14_package.md R363 to R390, R402; 15_fabric.md R417). -/

namespace Sys2Proof.Machine

open Sys2Proof

/-- Bytes of an image from an offset. -/
def imgBytes (m : List Byte) (off n : Nat) : List Byte := (m.drop off).take n
def imgField (m : List Byte) (off n : Nat) : Nat := leOf (imgBytes m off n)

/-- The signed image header (Table 14-9): KIND, LOADADDR, DIGEST, and the payload. -/
def imgKind (m : List Byte) : Nat := imgField m 6 2
def imgLoad (m : List Byte) : Nat := imgField m 16 8
def imgDigest (m : List Byte) : List Byte := imgBytes m 32 32
def imgPayload (m : List Byte) : List Byte := imgBytes m 1024 (imgField m 24 8)

/-- Set bits of a thermometer counter (R384). -/
def fuseCount (v : W64) : Nat := popcBits 64 v.toNat

/-- Whether an image is accepted (R383). -/
def State.accepts (s : State) (m : List Byte) : Bool :=
  let slot := imgField m 12 1
  let kind := imgKind m
  let modulus := imgBytes m 64 384
  imgBytes m 0 4 == [0x47, 0x4C, 0x42, 0x49] && imgField m 4 2 == 1 && decide (slot < 4) && decide (1 ≤ kind ∧ kind ≤ 4) &&
    BitVec.ofNat 256 (beOf (sha256 modulus)) == s.cfg.keyHash.getD slot 0 && !s.hub.revoke.getLsbD slot &&
    rsaVerify (beOf modulus) (beOf (imgBytes m 448 384)) (imgBytes m 0 448) &&
    (imgPayload m).length == imgField m 24 8 && sha256 (imgPayload m) == imgDigest m &&
    decide (fuseCount (s.hub.rollback.getD (kind - 1) 0) ≤ imgField m 8 4)

/-- MRk := SHA-256(MRk ‖ d) (R386). -/
def State.extendMr (s : State) (k : Fin 8) (d : List Byte) : State :=
  s.modHub fun h => { h with mr := h.mr.set k (BitVec.ofNat 256 (beOf (sha256 (beBytes (h.mr[k]).toNat 32 ++ d)))) }

/-- A Taproot core leaves reset at a physical address (R381, R382): supervisor mode, every register zero. -/
def State.releaseTaproot (s : State) (d : Fin 4) (t : Fin 4) (pa : Nat) : State :=
  s.setCore d (Fin.ofNat 68 (64 + t.val)) { Core.start with run := .running, pc := BitVec.ofNat 64 pa }

/-- The images the boot source offers, none where the straps are invalid (Table 14-8, step 2; R366 on the D form). -/
def State.bootImages (s : State) : Option (List (List Byte)) :=
  if s.cfg.form = .D then some (s.cfg.stage1.take 1)
  else
    match bits s.cfg.straps.toNat 2 1, s.cfg.straps.getLsbD 0 with
    | 0, _ => some (s.cfg.stage1.take 2)
    | 1, true => some (s.cfg.stage1.take 1)
    | _, _ => none

def State.bootFails (s : State) (err : Nat) : State :=
  s.modHub fun h => { h with boot := .failed err, bootErr := BitVec.ofNat 64 err }

/-- Boot (Table 14-8), up to the release of Taproot core 0 of die 0. What stage-1 firmware writes into registers is its own choice and is
left to the register writes that follow (DESIGN CHOICE, log 20). That TRSTART0 of die 0 then names the loader's address in [45:2], as if GO had
been written with it, is this model's choice: Table 14-5 fixes only bit 0 (DESIGN CHOICE, log 20). -/
def State.runBoot (s : State) (zero : Bool) : State :=
  match s.bootImages with
  | none => s.bootFails 2
  | some l =>
    match l.find? s.accepts with
    | none => s.bootFails 1
    | some m =>
      let s := s.extendMr 0 (imgDigest m)
      let s := if zero then { s with mem := [], poison := [], dram := [], dramPoison := [] } else s
      if !s.accepts s.cfg.loader then s.modHub fun h => { h with boot := .stage1 }
      else
        let s := s.extendMr 1 (imgDigest s.cfg.loader)
        let a := imgLoad s.cfg.loader
        let s := s.homePlace ((cellsAt a (imgPayload s.cfg.loader)).filter fun x => s.hasMem x.1)
        let s := s.modDie 0 fun x => { x with trStart := x.trStart.set 0 (BitVec.ofNat 64 (a / 4 * 4 + 1)) }
        (s.releaseTaproot 0 0 (a / 4 * 4)).modHub fun h => { h with boot := .done }

/-- COLD_RESET (R7, R381): every field at its Reset value but the fuses; memory holds what power-on left (DESIGN CHOICE, log 2), and boot runs. -/
def State.coldReset (s : State) : State :=
  ({ s with
     dies := Vector.replicate 4 (Die.reset s.cfg)
     hub := { Hub.reset with revoke := s.hub.revoke, rollback := s.hub.rollback, boot := .rom }
     mem := []
     poison := []
     dram := []
     dramPoison := []
     power := true } : State).runBoot true

/-- WARM_RESET (R9): as a cold reset, but memory, the fuses and the counters it names are kept. What the Heartwood slices held over memory is
lost, and so is what waited in a bridge stop. Links that were down are up again, as the fabric ports train again (DESIGN CHOICE, log 74). -/
def State.warmReset (s : State) : State :=
  let fresh (x : Die) : Die := { Die.reset s.cfg with etotal := x.etotal, ecore := x.ecore, ceCnt := x.ceCnt, l2ce := x.l2ce }
  ({ s with
     dies := s.dies.map fresh
     mem := s.dram
     poison := s.dramPoison
     hub := { Hub.reset with revoke := s.hub.revoke, rollback := s.hub.rollback, boot := .rom } } : State).runBoot false

/-- TAPROOT_START: a write to TRSTARTk (R382) of a die that the package holds (00_scope.md R1). Without GO, to a core that has left reset, or
before step 4 of boot (R381), it has no effect. -/
def State.startTaproot (s : State) (d t : Fin 4) (v : W64) : State :=
  if !s.hasDie d.val || s.hub.boot != .done || !v.getLsbD 0 || (s.core d (Fin.ofNat 68 (64 + t.val))).run != .idle then s
  else (s.modDie d fun x => { x with trStart := x.trStart.set t (v &&& 0x00003FFFFFFFFFFD) }).releaseTaproot d t (4 * bits v.toNat 45 2)

/-- TAPROOT_INTERRUPT (R372), at a bundle boundary. -/
def State.interruptTaproot (s : State) (d t : Fin 4) : State :=
  let c : Fin 68 := Fin.ofNat 68 (64 + t.val)
  if (s.core d c).run ≠ .running then s else (s.passDelay d c).takeInterrupt d c (s.core d c).stallTaken

/-- MODESEL: true for an endpoint (R377). -/
def State.endpoint (s : State) : Bool := s.cfg.form != .D && s.cfg.straps.getLsbD 0
def State.rootPort (s : State) : Bool := s.cfg.form != .D && !s.cfg.straps.getLsbD 0

/-- HOST_DOORBELL (R379): MBDB0 to MBDB15 exist, in endpoint mode. -/
def State.doorbell (s : State) (k : Fin 64) : State :=
  if s.endpoint && decide (k.val < 16) then s.modHub fun h => { h with mbPend := h.mbPend ||| BitVec.ofNat 64 (2 ^ k.val) } else s

/-- OUTDB_SEND (R379): an MSI-X vector goes to the host. -/
def State.sendMsi (s : State) (v : W64) : State :=
  if s.endpoint then s.modHub fun h => { h with msiSent := h.msiSent ++ [bits v.toNat 5 0] } else s

/-- INBOUND_MSI (R378): MSIPEND holds 32 vectors, in root mode. -/
def State.msiIn (s : State) (k : Fin 64) : State :=
  if s.rootPort && decide (k.val < 32) then s.modHub fun h => { h with msiPend := h.msiPend ||| BitVec.ofNat 64 (2 ^ k.val) } else s

/-- Whether an endpoint's BAR2 window covers an access (R379). -/
def State.inBar2 (s : State) (pa n : Nat) : Bool :=
  let base := bits s.hub.winBase.toNat 45 30 * 2 ^ 30
  decide (base ≤ pa) && decide (pa + n ≤ base + s.hub.winSize.toNat * 2 ^ 30)

/-- PCIE_INBOUND_ACCESS (R378, R379; 12_die.md R338, R339): as master 80 under the tables of the die addressed (DEDUCED, log 13). The host of
a bare die comes through the customer's package over the die link (00_scope.md R2, R366). -/
def State.pcieInbound (s : State) (write : Bool) (pa : Nat) (data : List Byte) : State :=
  if s.endpoint && !s.inBar2 pa data.length then s else s.inboundAccess 80 write pa data

/-- GTRIG_WRITE (R389; 15_fabric.md R417). -/
def State.trigger (s : State) (v : W64) : State :=
  if s.cfg.form = .D ∨ !v.getLsbD 0 ∨ s.hub.trigAt.isSome then s
  else s.modHub fun h => { h with trigAt := some (h.ptime + (if h.fabCfg.getLsbD 7 then 4096 else 256)) }

/-- TRIGGER_MESSAGE: T from another package, or from the customer's package (15_fabric.md R417; 14_package.md Table 14-1). -/
def State.triggerMessage (s : State) (t : W64) : State :=
  if s.hub.trigAt.isSome then s else s.modHub fun h => { h with trigAt := some t }

/-- What a die copies into its shadow block at a trigger (R389, R390): offset and value; per-core items lie from 0x4000 (DEDUCED, log 22). -/
def State.shadowItems (s : State) (d : Fin 4) (gseq t : W64) : List (Nat × W64) :=
  let x := s.die d
  let regs (a : Nat) (l : List W64) : List (Nat × W64) := l.zipIdx.map fun p => (a + 8 * p.2, p.1)
  [(0, gseq), (8, t), (0x140, x.pinOvf.setWidth 64), (0x718, x.atCnt.setWidth 64), (0x808, x.eused), (0x810, x.etotal)] ++
    regs 0x1000 x.ecore.toList ++ regs 0x1200 x.ethrot.toList ++ regs 0x3200 x.ceCnt.toList ++ regs 0x3280 x.l2ce.toList ++
    (List.range 64).flatMap fun c =>
      let i : Fin 68 := Fin.ofNat 68 c
      let k := s.core d i
      [(0x4000 + 32 * c, BitVec.ofNat 64 (ctxId d i k)), (0x4008 + 32 * c, BitVec.ofNat 64 (k.cyc % 2 ^ 48)),
       (0x4010 + 32 * c, k.eng.retired), (0x4018 + 32 * c, k.csr.statLost.setWidth 64)]

/-- TRIGGER_SHADOW_COPY (R389), at the edge at which PTIME = T. -/
def State.shadowCopy (s : State) : State :=
  match s.hub.trigAt with
  | none => s
  | some t =>
    if s.hub.ptime ≠ t then s
    else
      let g := s.hub.gseq + 1
      let s' := (List.finRange 4).foldl (fun (r : State) d =>
        r.modDie d fun x => { x with shadow := (s.shadowItems d g t).foldl (fun m e => sset m e.1 e.2) [] }) s
      s'.modHub fun h => { h with gseq := g, trigAt := none }

/-- Reference-clock ticks pass; a trigger whose T they reach is performed at that edge (R389). -/
def State.passTime (s : State) (n : Nat) : State :=
  let setTo (s : State) (p : W64) : State := s.modHub fun h => { h with ptime := p }
  let stop := s.hub.ptime + BitVec.ofNat 64 n
  match s.hub.trigAt with
  | none => setTo s stop
  | some t =>
    let left := (t - s.hub.ptime).toNat
    if left = 0 ∨ left > n then setTo s stop else setTo (setTo s t).shadowCopy stop

/-- Whether a link joins dies that the package holds (00_scope.md R1). -/
def State.hasLink (s : State) : Link → Bool
  | .dies a b => a != b && s.hasDie a.val && s.hasDie b.val
  | .hub d => s.hasDie d.val

/-- LINK_DOWN (R365): traffic takes another route, and the near die posts a machine check of kind 3 (Table 14-18). -/
def State.linkDown (s : State) (l : Link) : State :=
  if !s.hasLink l || s.hub.linksDown.contains l then s
  else
    let s := s.modHub fun h => { h with linksDown := h.linksDown ++ [l] }
    match l with
    | .dies a b => s.machineCheck a 3 (0x10 + b.val) 0
    | .hub d => s.machineCheck d 3 (0x10 + 4) 0

/-- MEMORY_UNCORRECTABLE (R376): the line is poisoned, in memory and where a slice has it from there, and its die posts a machine check of
kind 4. A line that is dirty in its Heartwood slice is not poisoned. -/
def State.memoryBad (s : State) (d : Fin 4) (line : Nat) : State :=
  let a := lineOf line
  if s.hasMem a && s.ownerDie a == d then
    (if s.heartDirty a then s else { s with poison := insertNat a s.poison, dramPoison := insertNat a s.dramPoison }).machineCheck d 4 (s.channel a) a
  else s

/-- PATROL_SCRUB (R376) of one line: sound, with an error that the inline code corrects and counts, or with one that it does not. A SCRUB
of 0 stops the patrol. -/
def State.scrubLine (s : State) (d : Fin 4) (line : Nat) (err : Option Bool) : State :=
  let a := lineOf line
  if (s.die d).scrub = 0 ∨ !s.hasMem a ∨ s.ownerDie a ≠ d then s
  else
    match err with
    | none => s
    | some true => s.countCorrected a
    | some false => s.memoryBad d a

/-- ATTEST_REPORT (Table 14-10); a bare die holds no identity key (Table 14-1). -/
def State.attest (s : State) (nonce : BitVec 256) : State :=
  if s.cfg.form = .D then s else
  let h := s.hub
  let dbg := (if h.unlocked then 1 else 0) + (if (List.range s.cfg.dies).all fun d => (s.die (dieOf d)).atLock then 2 else 0)
  let body := [0x47, 0x4C, 0x41, 0x52] ++ bytesOf 1 4 ++ ((List.range 16).map Config.fusedByte) ++ beBytes nonce.toNat 32 ++
    h.mr.toList.flatMap (fun m => beBytes m.toNat 32) ++ h.rollback.toList.flatMap (fun c => bytesOf (fuseCount c) 8) ++
    bytesOf h.ptime.toNat 8 ++ bytesOf dbg 8
  s.modHub fun h => { h with report := some (body ++ beBytes (Config.identitySign body).toNat 384) }

/-- FUSE_RAISE (R384): fuses only change from 0 to 1, and only at a request that the running stage-1 firmware has signed with its own key
slot. -/
def State.raiseFuse (s : State) (f : Fuse) (v : W64) (signed : Bool) : State :=
  if !signed || !(s.hub.boot == .stage1 || s.hub.boot == .done) then s
  else
    match f with
    | .revoke => s.modHub fun h => { h with revoke := h.revoke ||| (v &&& 0xF) }
    | .rollback k => s.modHub fun h => { h with rollback := h.rollback.set k (h.rollback[k] ||| v) }

/-- DEBUG_UNLOCK (R387): only for a challenge signed by a key of slot 0. -/
def State.unlockDebug (s : State) (signed : Bool) : State := if signed then s.modHub fun h => { h with unlocked := true } else s

/-- THERMAL_THROTTLE at 95 °C: a lower engine clock, which changes timing only (R402). -/
def State.thermalSlow (s : State) (d : Fin 4) : State := s.modDie d fun x => { x with thermLow := true }

/-- THERMAL_HOLD at 105 °C (R402). -/
def State.thermalHold (s : State) (d : Fin 4) : State :=
  if (s.die d).thermHold then s else (s.modDie d fun x => { x with thermHold := true }).machineCheck d 5 0 0

/-- THERMAL_HOLD_RELEASE below 100 °C (R402). -/
def State.thermalFree (s : State) (d : Fin 4) : State := s.modDie d fun x => { x with thermHold := false }

/-- THERMTRIP at 115 °C: the board removes power (R402). -/
def State.thermTrip (s : State) (_ : Fin 4) : State := { s with power := false }

end Sys2Proof.Machine
end

