-- ==== Sys2Proof/Machine/Debug.lean ====
section
/-! DEFINITION. The debug port's commands on a core's debug block (09_core_traps.md R268 to R270; 14_package.md R387, Tables 14-11, 14-17). -/

namespace Sys2Proof.Machine

open Sys2Proof

/-- Whether the port reaches anything but the boundary scan (14_package.md R387). -/
def State.portOpen (s : State) : Bool := !s.cfg.dbgLock || s.hub.unlocked

/-- The last command was refused, or was not (DBGSTAT.ERR). -/
def Core.dbgErr (k : Core) (e : Bool) : Core := { k with dbg := { k.dbg with err := e } }

/-- A command on a frozen core; on another it only sets ERR (Table 14-11). -/
def Core.whenFrozen (k : Core) (f : Core → Core) : Core := if k.dbg.frozen then f (k.dbgErr false) else k.dbgErr true

/-- The operand of the command written last: bits [63:16] of DBGCMD. -/
def Core.dbgOperand (k : Core) : Nat := bits k.dbg.cmd.toNat 63 16

/-- FREEZE (R268), with reason 0x00. -/
def Core.dbgFreeze (k : Core) : Core := (k.freeze 0).dbgErr false

/-- RESUME (R268, R274). -/
def Core.dbgResume (k : Core) : Core := k.whenFrozen fun k => { k with skipBp := true, dbg := { k.dbg with frozen := false } }

/-- STEP (R270): the core runs until the schedule cycle has advanced by one. -/
def Core.dbgStep (k : Core) : Core := k.whenFrozen fun k => { k with dbg := { k.dbg with frozen := false, stepping := true, moved := [] } }

/-- STEPOVER (R270): until the queues named in bits [12:8] of DBGCMD are empty. -/
def Core.dbgStepOver (k : Core) : Core :=
  k.whenFrozen fun k => { k with dbg := { k.dbg with frozen := false, stepOver := some (bits k.dbg.cmd.toNat 12 8) } }

/-- The save-area layout of a core as it stands (R269). -/
def Core.portImage (k : Core) : Bytes := k.saveImage 0 0 0 0

/-- READ (R269). -/
def Core.dbgRead (k : Core) : Core :=
  k.whenFrozen fun k => { k with dbg := { k.dbg with data := BitVec.ofNat 64 (readLE k.portImage (k.dbgOperand / 8 * 8) 8) } }

/-- Pending write `n`, counted as the in-flight records of the save-area layout are, is cancelled; a number beyond them is refused. -/
def Core.cancelPend (k : Core) (n : Nat) : Core :=
  let a := k.srb.length
  let b := a + k.pend.length
  let c := b + k.held.length
  if n < a then { k with srb := listDrop k.srb n }
  else if n < b then { k with pend := listDrop k.pend (n - a) }
  else if n < c then { k with held := listDrop k.held (n - b) }
  else if n - c < k.eng.btoks.length then { k with eng := { k.eng with btoks := listDrop k.eng.btoks (n - c) } }
  else k.dbgErr true

/-- CANCEL (R269). -/
def Core.dbgCancel (k : Core) : Core := k.whenFrozen fun k => k.cancelPend k.dbgOperand

/-- A pending write from an in-flight record whose offset is 1 to 8 (Table 9-4). -/
def pendOf (k : Core) (r : Nat) : Option Pend :=
  let f := recAt r
  let off := f 4 2
  let latch := f 6 1
  match dstOf (f 0 1) (f 2 2) with
  | none => none
  | some dst =>
    if off < 1 ∨ off > 8 ∨ f 1 1 ≥ 8 ∨ (latch ≠ 0 ∧ (latchOf latch).isNone) then none
    else
      let vt : Option VtbldArgs := match dst with
        | .vtbld h => some (vtbldOf r (k.rings[h]).gen.toNat)
        | _ => none
      some ⟨k.now + off, f 1 1, f 8 8, 0, dst, f 48 256, dst.enables (f 16 32), latchOf latch, [], k.handler, vt⟩

/-- REINJECT (R269): the record staged in DBGREC becomes a pending write; one that is none, or finds 64 pending, is refused. -/
def Core.dbgReinject (k : Core) : Core :=
  k.whenFrozen fun k =>
    match pendOf k k.dbg.recd with
    | some w => if k.inFlight < 64 then { k with pend := k.pend ++ [w] } else k.dbgErr true
    | none => k.dbgErr true

/-- WRITE (R269): any register or scratchpad byte of the save-area layout, full/empty bits among them; queues, rings and in-flight records
stay (DESIGN CHOICE, log 90). -/
def Core.dbgWrite (k : Core) : Core :=
  k.whenFrozen fun k =>
    let t := k.restoreRegs (writeLE k.portImage (k.dbgOperand / 8 * 8) 8 k.dbg.data.toNat)
    ({ t with skipBp := k.skipBp, statStuck := k.statStuck, spad := k.spad } : Core).setSpad t.spad

/-- A command code on a core (Table 14-11). -/
def Core.dbgCommand (k : Core) (code : Nat) : Core :=
  match code with
  | 1 => k.dbgFreeze
  | 2 => k.dbgResume
  | 3 => k.dbgStep
  | 4 => k.dbgStepOver
  | 5 => k.dbgRead
  | 6 => k.dbgCancel
  | 7 => k.dbgReinject
  | 8 => k.dbgWrite
  | _ => k.dbgErr true

/-- A command on the debug block of an engine core; Taproot cores have none. -/
def State.onDebug (s : State) (d : Fin 4) (c : Fin 68) (f : Core → Core) : State := if isTaproot c then s else s.modCore d c f

/-- A command of the port. -/
def State.portCommand (s : State) (d : Fin 4) (c : Fin 68) (f : Core → Core) : State := if s.portOpen then s.onDie d fun s => s.onDebug d c f else s

end Sys2Proof.Machine
end

