-- ==== Sys2Proof/Machine/DieOps.lean ====
section
/-! DEFINITION. The services of a die: pin ranges, TLB invalidation, pager answers, access tables, energy windows, L2 errors (12_die.md R324
to R341; 10_cluster.md R299, R301; 08_core_memory.md R239; 13_scheduling.md R354 to R360). -/

namespace Sys2Proof.Machine

open Sys2Proof

/-- PRELOAD of a range: every line of it that this die holds, in ascending order (R326). -/
def State.preloadRange (s : State) (d : Fin 4) (r : Fin 8) : State :=
  let v := (s.die d).hwpin[r]
  (List.range (pinSize v / 64)).foldl (fun s i =>
    let a := pinBase v + 64 * i
    if s.hasMem a && s.ownerDie a == d then s.pinFill d a else s) s

/-- A write to HWPINr: the range is set, clearing EN unpins its lines at once, and PRELOAD reads them (Table 12-3). -/
def State.writePin (s : State) (d : Fin 4) (r : Fin 8) (v : W64) : State :=
  let old := (s.die d).hwpin[r]
  let s := s.modDie d fun x => { x with
    hwpin := x.hwpin.set r (v &&& 0xBFF83FFFFFE00000)
    pinned := if old.getLsbD 63 && !v.getLsbD 63 then x.pinned.filter fun a => !pinCovers old a else x.pinned }
  if v.getLsbD 62 then s.preloadRange d r else s

/-- A write to TLBINV issues one command (R332). -/
def State.issueTlbinv (s : State) (d : Fin 4) (v : W64) : State :=
  s.modDie d fun x => { x with tlbSeq := x.tlbSeq + 1, tlbCmds := x.tlbCmds ++ [⟨v, x.tlbEnd, false⟩] }

/-- Fields of a command (Table 12-7). -/
def tlbKind (c : TlbCmd) : Nat := bits c.cmd.toNat 63 62
def tlbAsn (c : TlbCmd) : Nat := bits c.cmd.toNat 61 50
def tlbStart (c : TlbCmd) : Nat := bits c.cmd.toNat 47 12 * 4096
def tlbStop (c : TlbCmd) : Nat := bits c.stop.toNat 47 12 * 4096

/-- A command whose reserved bits are nonzero, or whose range is empty, invalidates nothing (R332). -/
def tlbIdle (c : TlbCmd) : Bool :=
  bits c.cmd.toNat 49 48 != 0 || bits c.cmd.toNat 11 0 != 0 || (decide (tlbKind c < 2) && tlbStart c != 0) ||
    (tlbKind c == 3 && bits c.cmd.toNat 47 46 != 0) || (decide (tlbKind c ≥ 2) && decide (tlbStop c ≤ tlbStart c))

/-- Whether a command covers a translation. -/
def TlbCmd.covers (c : TlbCmd) (e : TlbEntry) : Bool :=
  match tlbKind c with
  | 0 => true
  | 1 => e.asn == tlbAsn c
  | 2 => e.asn == tlbAsn c && decide (e.vpn * 2 ^ e.bits < tlbStop c) && decide (tlbStart c < (e.vpn + 1) * 2 ^ e.bits)
  | _ => false

/-- Whether an address lies in the page of one of some translations. -/
def inFrames (l : List TlbEntry) (a : Nat) : Bool := l.any fun e => a / 2 ^ e.bits == e.ppn

/-- Before a core drops the translations `l`: its accesses under them are performed at die scope, dirty lines of their pages with them
(R332). None while one of them must still wait. -/
def State.flushFrames (reg : State → Fin 4 → Nat → W64 → State) (s : State) (d : Fin 4) (c : Fin 68) (l : List TlbEntry) : Option State :=
  let s := if (s.core d c).memq.any fun m => m.kind.bytes.any (inFrames l) then State.drainHead reg d c (s.core d c).memq.length s else s
  let k := s.core d c
  if k.memq.any (fun m => m.kind.bytes.any (inFrames l)) || s.hub.fabWrites.any (fun w => w.die == d && w.core == c && inFrames l w.addr) then none
  else
    let dirty := k.l1.filter fun x => x.dirty != 0 && inFrames l x.addr
    let s := dirty.foldl (fun s x => s.writeBackLine d c .d x) s
    let s := s.modCore d c fun k => { k with l1 := k.l1.map fun x => if inFrames l x.addr then { x with dirty := 0 } else x }
    if isTaproot c then some s
    else some (((s.slice d (clusterOf c)).lines.filter fun x => inFrames l x.addr && x.cores.contains c.val).foldl
      (fun s x => s.sliceFlush d (clusterOf c) x.addr) s)

/-- Whether a command covers `n` bytes of cached code (14_package.md R396). -/
def TlbCmd.coversCode (c : TlbCmd) (asn va n : Nat) : Bool :=
  match tlbKind c with
  | 0 => true
  | 1 => asn == tlbAsn c
  | 2 => asn == tlbAsn c && decide (va % 2 ^ 48 < tlbStop c) && decide (tlbStart c < va % 2 ^ 48 + n)
  | _ => false

/-- One core's part of an invalidation: translations, those that a later walk has replaced among them, and the cached code they cover. -/
def State.invalidateCore (reg : State → Fin 4 → Nat → W64 → State) (s : State) (d : Fin 4) (cmd : TlbCmd) (c : Fin 68) : Option State :=
  let l := ((s.core d c).tlb ++ (s.core d c).tlbOld).filter cmd.covers
  let gone (s : State) : State :=
    s.modCore d c fun k => { k with tlb := k.tlb.filter fun e => !cmd.covers e, tlbOld := k.tlbOld.filter fun e => !cmd.covers e, answers := [], code := ⟨k.code.ops.filter fun e => !cmd.coversCode e.asn e.va (4 * e.words.length), k.code.lines.filter fun e => !cmd.coversCode e.asn e.va 64⟩ }
  if l.isEmpty then some (gone s) else (s.flushFrames reg d c l).map gone

/-- The CW purge of a physical range: every L1 and L2 line of it is dropped, after its dirty bytes have gone to their home (R332). -/
def State.purgeRange (s : State) (d : Fin 4) (lo hi : Nat) : State :=
  let inR (a : Nat) : Bool := decide (lo ≤ a) && decide (a < hi)
  let s := (List.finRange 68).foldl (fun s c =>
    let l := (s.core d c).l1.filter fun x => inR x.addr
    let s := l.foldl (fun s x => s.writeBackLine d c .d x) s
    s.modCore d c fun k => { k with l1 := k.l1.filter fun x => !inR x.addr }) s
  (List.range 8).foldl (fun s k => ((s.slice d k).lines.filter fun x => inR x.addr).foldl (fun s x => s.sliceEvict d k x.addr) s) s

/-- The oldest command not performed yet. -/
def Die.nextTlb (x : Die) : Option TlbCmd := x.tlbCmds.find? fun c => !c.performed

/-- Marks the oldest command not performed yet. -/
def markPerformed : List TlbCmd → List TlbCmd
  | [] => []
  | c :: l => if c.performed then c :: markPerformed l else { c with performed := true } :: l

/-- What a command does to its die: nothing where it covers nothing; none while an access under a covered translation must still wait. -/
def State.invalidate (reg : State → Fin 4 → Nat → W64 → State) (s : State) (d : Fin 4) (c : TlbCmd) : Option State :=
  if tlbIdle c then some s
  else if tlbKind c = 3 then some (s.purgeRange d (tlbStart c) (tlbStop c))
  else (List.finRange 68).foldl (fun r i => r.bind fun s => s.invalidateCore reg d c i) (some s)

/-- The next command is performed, if it is of a kind and nothing it must wait for is left. -/
def State.performTlb (reg : State → Fin 4 → Nat → W64 → State) (s : State) (d : Fin 4) (kind : Nat) : State :=
  match (s.die d).nextTlb with
  | none => s
  | some c =>
    if tlbKind c ≠ kind then s
    else
      match s.invalidate reg d c with
      | none => s
      | some s => s.modDie d fun x => { x with tlbCmds := markPerformed x.tlbCmds }

/-- TLBINV_COMPLETE: the oldest command, once performed, is complete, and TLBDONE passes to its number. What a walk has fetched since, under a
translation it covers, goes first: none is held at that point (R332). -/
def State.completeTlb (reg : State → Fin 4 → Nat → W64 → State) (s : State) (d : Fin 4) : State :=
  match (s.die d).tlbCmds with
  | [] => s
  | c :: l =>
    if !c.performed then s
    else
      match s.invalidate reg d c with
      | none => s
      | some s => s.modDie d fun x => { x with tlbCmds := l, tlbDone := x.tlbDone + 1 }

/-- Replays the parked writes of the engines of a core that stand at a page (R239). -/
def State.replayPage (s : State) (d : Fin 4) (c : Fin 68) (vpn : Nat) : State :=
  ([0, 1] : List (Fin 2)).foldl (fun s y =>
    let e := (s.core d c).eng
    match e.yq[y], e.spill[y] with
    | cmd :: _, p :: _ => if va48 p.line / 4096 = vpn then Yc.replay ⟨d, c, y, cmd⟩ (e.spill[y]).length s else s
    | _, _ => s) s

/-- The engine cores of a die that translate in an address space. -/
def State.coresOf (s : State) (d : Fin 4) (asn : Nat) : List (Fin 68) :=
  (List.finRange 68).filter fun c => (s.core d c).run != .idle && (s.who d c).asn == asn

/-- PGANS with verdict 0 (R334): every engine that waits for the page translates again. -/
def State.pageMapped (s : State) (d : Fin 4) (tag : Nat) : State :=
  match (s.die d).pager.find? fun r => r.tag == tag with
  | none => s
  | some r =>
    let s := s.modDie d fun x => { x with pager := x.pager.filter fun r => r.tag != tag }
    (s.coresOf d r.asn).foldl (fun s c =>
      let wake (y : CopyCmd) : CopyCmd := if y.page == some r.vpn then { y with page := none } else y
      let s := s.modCore d c fun k => { k with eng := { k.eng with yq := k.eng.yq.map fun q => q.map wake } }
      s.replayPage d c r.vpn) s

/-- A command that waits for a page that the pager declines ends with status 0x04, and its parked writes are gone at once (R239, R334;
11_ordering.md R318). -/
def Engines.decline (x : Engines) (vpn : Nat) (y : Fin 2) : Engines :=
  let hit (p : Parked) : Bool := va48 p.line / 4096 == vpn
  let waits (m : CopyCmd) : Bool := m.page == some vpn || (x.spill[y]).any fun p => p.cmd == m.id && hit p
  let gone := ((x.yq[y]).filter waits).map (·.id)
  { x with yq := x.yq.set y ((x.yq[y]).map fun m => if waits m then m.end 0x04 else m)
           spill := x.spill.set y ((x.spill[y]).filter fun p => !gone.contains p.cmd) }

/-- PGANS with verdict 1 (R334): every command waiting on the record ends with status 0x04, its parked writes with it. -/
def State.pageDeclined (s : State) (d : Fin 4) (tag : Nat) : State :=
  match (s.die d).pager.find? fun r => r.tag == tag with
  | none => s
  | some r =>
    let s := s.modDie d fun x => { x with pager := x.pager.filter fun r => r.tag != tag }
    (s.coresOf d r.asn).foldl (fun s c => s.modCore d c fun k => { k with eng := (k.eng.decline r.vpn 0).decline r.vpn 1 }) s

/-- A write to ATDOM, ATREG, ATDEF or SPPERM, ignored once ATLOCK is set (R338, Tables 12-7, 12-9). -/
def Die.writeTables (x : Die) (off : Nat) (v : W64) : Die :=
  if x.atLock then x
  else if 0x0400 ≤ off ∧ off < 0x0600 then { x with atDom := x.atDom.setIfInBounds ((off - 0x0400) / 8) v }
  else if off = 0x0700 then { x with atDef := v &&& 0xFFFFFFFF }
  else if 0x0A00 ≤ off ∧ off < 0x0C00 then
    let i := (off - 0x0A00) / 16
    let e := x.atReg.getD i (0, 0)
    let e := if off / 8 % 2 = 0 then (v &&& 0xFFFFFF8001FFFFFF, e.2) else (e.1, v &&& 0xFFFFFFFF00000001)
    { x with atReg := x.atReg.setIfInBounds i e }
  else if 0x0C00 ≤ off ∧ off < 0x0E00 then { x with spPerm := x.spPerm.setIfInBounds ((off - 0x0C00) / 8) (v &&& 0xFFFFFFFF) }
  else x

/-- ATLOCK is W1S (Table 12-7). -/
def Die.lockTables (x : Die) (v : W64) : Die := { x with atLock := x.atLock || v.getLsbD 0 }

/-- ATLOG: a write with bit 63 set clears the whole register (Table 12-7); another clears the matching bits. -/
def Die.clearLog (x : Die) (v : W64) : Die := { x with atLog := if v.getLsbD 63 then 0 else x.atLog &&& ~~~v }

/-- EBUDGET: BUDGET is clamped (Table 12-11). A hold that has begun stays until its window ends (R341). -/
def Die.writeBudget (x : Die) (v : W64) : Die :=
  let b := Nat.max 30000 (Nat.min 150000 (bits v.toNat 31 0))
  { x with ebudget := (v &&& 0x800000FF00000000) ||| BitVec.ofNat 64 b, hardHold := x.hardHold || x.spent }

/-- Energy drawn by engine core `c`, in µJ; 64 and above are drawn elsewhere on the die (R340). -/
def Die.draw (x : Die) (c uj : Nat) : Die :=
  let e := BitVec.ofNat 64 uj
  { x with eused := x.eused + e, etotal := x.etotal + e, ecore := x.ecore.setIfInBounds c (x.ecore.getD c 0 + e) }

/-- ENERGY_SOFT_LIMIT (R341): EUSED has reached SOFT × BUDGET ÷ 256; a lower engine clock changes timing only. -/
def Die.softLimit (x : Die) : Die :=
  if x.budgetOn && decide (256 * x.eused.toNat ≥ bits x.ebudget.toNat 39 32 * x.budget) then { x with softLow := true } else x

/-- ENERGY_HARD_HOLD (R341): EUSED has reached BUDGET. -/
def Die.startHold (x : Die) : Die :=
  if x.budgetOn && decide (x.eused.toNat ≥ x.budget) then { x with hardHold := true } else x

/-- What a window boundary does to one record (13_scheduling.md R355, R356, R360). -/
def NurRec.nextWindow (r : NurRec) : NurRec :=
  { r with
    windows := if r.st = .idle then 0 else r.windows + 1
    refusedWin := if r.refusedWin ≥ 4 then r.refusedWin else if r.refusedNow then r.refusedWin + 1 else 0
    refusedNow := false
    st := if r.st = .parked then .ready else r.st
    lwaitVa := if r.st = .parked then none else r.lwaitVa }

/-- ENERGY_WINDOW_BOUNDARY (R340, R341; 13_scheduling.md R354 to R360). -/
def State.windowBoundary (s : State) (d : Fin 4) : State :=
  let s := s.modDie d fun x => { x with
    eused := BitVec.ofNat 64 (x.eused.toNat - x.budget)
    hardHold := false
    softLow := false
    admSum := 0
    passDue := true
    recs := x.recs.map NurRec.nextWindow }
  ((s.die d).recs.filter fun r => r.st == .armed).foldl (fun s r => s.testDep d r.idx) s

/-- L2_ECC_ERROR (10_cluster.md R299, R301): a corrected error counts; a clean line goes; a dirty one is poisoned; the lines
held in a failed way are misses from then on (which they are the event says, as the index function is not architected: R279; DEDUCED, log 24); a set
whose state is lost is emptied. -/
def State.l2Error (s : State) (d : Fin 4) (k : Fin 8) (e : EccError) : State :=
  match e with
  | .corrected => s.modDie d fun x => { x with l2ce := x.l2ce.set k (x.l2ce[k] + 1) }
  | .cleanLine a =>
    match (s.slice d k.val).find (lineOf a) with
    | some l => if l.dirty = 0 then s.setSlice d k.val ((s.slice d k.val).drop (lineOf a)) else s
    | none => s
  | .dirtyLine a =>
    match (s.slice d k.val).find (lineOf a) with
    | some l => if l.dirty = 0 then s else s.setSlice d k.val ((s.slice d k.val).put { l with poison := true })
    | none => s
  | .tagWay w held =>
    let x := s.slice d k.val
    if x.failed.contains w then s
    else
      let x := held.foldl (fun x a => x.drop (lineOf a)) x
      (s.setSlice d k.val { x with failed := x.failed ++ [w] }).machineCheck d 1 k.val 0
  | .setState n => (s.setSets d k.val n.val []).machineCheck d 2 (32 * k.val + n.val) 0

/-- L1_WRITEBACK (10_cluster.md R280): a line of an L1 goes to its slice, and is dropped on replacement. -/
def State.l1Back (s : State) (d : Fin 4) (c : Fin 68) (line : Nat) (evict : Bool) : State :=
  let a := lineOf line
  match (s.core d c).l1Find a with
  | none => s
  | some l =>
    let s := s.writeBackLine d c .k l
    s.modCore d c fun k => if evict then k.l1Drop a else k.l1Put { l with dirty := 0, tag := if scopeRank l.tag < 1 then .k else l.tag }

/-- L2_WRITEBACK (10_cluster.md R280): a line of a slice goes to its home, and is dropped on replacement. -/
def State.l2Back (s : State) (d : Fin 4) (k : Fin 8) (line : Nat) (evict : Bool) : State :=
  let a := lineOf line
  if evict then s.sliceEvict d k.val a else s.sliceFlush d k.val a

/-- Whether an entry of the memory pipeline waits for a line from the slice: a cacheable load that allocates, or a prefetch. -/
def MemKind.wantsLine (m : MemKind) (a : Nat) : Bool :=
  match m with
  | .load _ _ cells noAlloc _ _ => !noAlloc && cells.any fun x => lineOf x.2 == a
  | .prefetch pa => lineOf pa == a
  | _ => false

/-- L1_MISS_FILL (10_cluster.md R281): the slice returns a line that an entry of the pipeline waits for. -/
def State.missFill (s : State) (d : Fin 4) (c : Fin 68) (line : Nat) : State :=
  let a := lineOf line
  if s.cacheable a && (s.core d c).memq.any fun m => m.kind.wantsLine a then (((s.l1Fill d c a false).2).l1Fill d c (a + 32) false).2 else s

/-- PAGE_WALK (R330, R331): a walk for a miss of a core keeps the translation it finds and marks its leaf; a walk that the access tables refuse is
logged (R339). Where misses wait, the one walked for is the one whose turn it is; a walk that no access waits for leaves no refusal behind. -/
def State.walkFor (s : State) (d : Fin 4) (c : Fin 68) (va : W64) (write : Bool) : State :=
  let w := s.who d c
  let kind : AccKind := if write then .write else .read
  if (s.core d c).run = .idle ∨ !w.on ∨ !canonical va then s
  else
    match (s.die d).nextMiss with
    | some x => if x.core = c ∧ x.merges (w.miss kind va) then s.serveMiss d x else s
    | none =>
      match s.walkNow w kind va with
      | (.ok _, s) => s
      | (.error _, s) => s

end Sys2Proof.Machine
end

