-- ==== Sys2Proof/Machine/Registers.lean ====
section
/-! DEFINITION. Writes to the registers of region 3 (00_scope.md R7; 12_die.md R336, Table 12-7; 13_scheduling.md Tables 13-4, 13-5;
14_package.md Tables 14-5, 14-7, 14-11, 14-17; 15_fabric.md Table 15-3). -/

namespace Sys2Proof.Machine

open Sys2Proof

/-- BASE, SIZE, HEAD and TAIL of a ring in memory; TAIL is read-only (R335). -/
def MemQueue.write (q : MemQueue) (i : Nat) (v : W64) : MemQueue :=
  match i with
  | 0 => { q with base := v }
  | 1 => { q with size := v }
  | 2 => { q with head := v }
  | _ => q

/-- W1C: each 1 bit clears the matching bit (Table 0-4). -/
def w1c {w : Nat} (old : BitVec w) (v : W64) : BitVec w := old &&& ~~~(v.setWidth w)

/-- PGANS: the tag and the verdict (Table 12-7). -/
def State.answerPage (s : State) (d : Fin 4) (v : W64) : State :=
  if v.getLsbD 32 then s.pageDeclined d (bits v.toNat 31 0) else s.pageMapped d (bits v.toNat 31 0)

/-- A write to a core's debug block (Table 14-17): the debug port's commands, DBGDATA, and the record staged for REINJECT. -/
def State.writeDebug (s : State) (d : Fin 4) (c : Fin 68) (o : Nat) (v : W64) : State :=
  if o = 0x000 then
    s.onDebug d c fun k => ({ k with dbg := { k.dbg with cmd := v } } : Core).dbgCommand (bits v.toNat 7 0)
  else if o = 0x010 then s.onDebug d c fun k => { k with dbg := { k.dbg with data := v } }
  else if 0x400 ≤ o ∧ o < 0x540 then
    s.onDebug d c fun k =>
      let i := 8 * (o - 0x400)
      let old := k.dbg.recd / 2 ^ i % 2 ^ 64
      { k with dbg := { k.dbg with recd := k.dbg.recd - old * 2 ^ i + v.toNat * 2 ^ i } }
  else s

/-- A 64-bit write to an 8-byte aligned offset of a die's register block; read-only and unlisted offsets ignore it. -/
def State.writeDieReg (s : State) (d : Fin 4) (off : Nat) (v : W64) (dbg : Bool) : State :=
  let i := off / 8
  let die (f : Die → Die) : State := s.modDie d f
  if 0x0100 ≤ off ∧ off < 0x0140 then s.writePin d (Fin.ofNat 8 (i - 0x20)) v
  else if off = 0x0140 then die fun x => { x with pinOvf := w1c x.pinOvf v }
  else if off = 0x0200 then s.issueTlbinv d v
  else if off = 0x0210 then die fun x => { x with tlbEnd := v &&& 0x0000FFFFFFFFF000 }
  else if 0x0300 ≤ off ∧ off < 0x0320 then (die fun x => { x with pgq := x.pgq.write (i - 0x60) v }).pump d
  else if off = 0x0320 then s.answerPage d v
  else if 0x0340 ≤ off ∧ off < 0x0360 then die fun x => { x with pfq := x.pfq.write (i - 0x68) v }
  else if (0x0400 ≤ off ∧ off < 0x0600) ∨ off = 0x0700 ∨ (0x0A00 ≤ off ∧ off < 0x0C00) ∨ (0x0C00 ≤ off ∧ off < 0x0E00) then
    die fun x => x.writeTables off v
  else if off = 0x0708 then die fun x => x.lockTables v
  else if off = 0x0710 then die fun x => x.clearLog v
  else if off = 0x0718 then die fun x => { x with atCnt := w1c x.atCnt v }
  else if off = 0x0800 then die fun x => x.writeBudget v
  else if off = 0x2000 then die fun x => { x with nurBase := v &&& 0x00003FFFFFF00000 }
  else if off = 0x2008 then die fun x => { x with schedCfg := v &&& 0x0000FFFFFFFF0001 }
  else if off = 0x2018 then s.nrcmd d v
  else if 0x2020 ≤ off ∧ off < 0x2040 then (die fun x => { x with sevq := x.sevq.write (i - 0x404) v }).pump d
  else if 0x3000 ≤ off ∧ off < 0x3020 then die fun x => { x with mcq := x.mcq.write (i - 0x600) v }
  else if off = 0x3020 then die fun x => { x with mcLost := w1c x.mcLost v }
  else if off = 0x3100 then die fun x => { x with trSoft := v &&& 0xF }
  else if 0x3200 ≤ off ∧ off < 0x3280 then die fun x => { x with ceCnt := x.ceCnt.setIfInBounds (i - 0x640) (w1c (x.ceCnt.getD (i - 0x640) 0) v) }
  else if 0x3280 ≤ off ∧ off < 0x32C0 then die fun x => { x with l2ce := x.l2ce.setIfInBounds (i - 0x650) (w1c (x.l2ce.getD (i - 0x650) 0) v) }
  else if off = 0x3300 then die fun x => { x with scrub := v }
  else if 0x3400 ≤ off ∧ off < 0x3420 then s.startTaproot d (Fin.ofNat 4 (i - 0x680)) v
  else if dbg ∧ 0x01000000 ≤ off ∧ off < 0x01040000 then
    s.writeDebug d (Fin.ofNat 68 ((off - 0x01000000) / 0x1000)) (off % 0x1000) v
  else s

/-- A 64-bit write to the Hub's register block. -/
def State.writeHubReg (s : State) (off : Nat) (v : W64) : State :=
  let hub (f : Hub → Hub) : State := s.modHub f
  if off = 0x0010 then s.trigger v
  else if off = 0x0100 then hub fun h => { h with mbPend := w1c h.mbPend v }
  else if off = 0x0108 then hub fun h => { h with mbRoute := v &&& 0x3 }
  else if off = 0x0110 then s.sendMsi v
  else if off = 0x0118 then hub fun h => { h with msiPend := w1c h.msiPend v }
  else if off = 0x0120 then hub fun h => { h with winBase := v &&& 0x00003FFFC0000000 }
  else if off = 0x0128 then hub fun h => { h with winSize := v }
  else if off = 0x1000 then s.writeFabCfg v
  else if 0x1040 ≤ off ∧ off < 0x1080 then hub fun h =>
    let i := (off - 0x1040) / 8
    { h with fabPort := h.fabPort.setIfInBounds i ((h.fabPort.getD i 0 &&& ~~~1#64) ||| (v &&& 1)) }
  else if 0x1100 ≤ off ∧ off < 0x1178 then s.writeRoute (Fin.ofNat 15 ((off - 0x1100) / 8)) v
  else if off = 0x1180 then hub fun h => { h with fabDrop := w1c h.fabDrop v }
  else if 0x1200 ≤ off ∧ off < 0x1400 then
    let n : Fin 16 := Fin.ofNat 16 ((off - 0x1200) / 32)
    if off % 32 = 0 then s.writeWindow n false v else if off % 32 = 8 then s.writeWindow n true v else s
  else s

/-- A register of region 3 written whole; `dbg` says that the writer reaches the debug blocks (14_package.md R387). -/
def State.writeReg (s : State) (pa : Nat) (v : W64) (dbg : Bool) : State :=
  let b := regBlock pa
  let off := pa % 2 ^ 32 / 8 * 8
  if bits pa 45 44 ≠ 3 then s
  else if b < 4 then (if s.hasDie b then s.writeDieReg (dieOf b) off v dbg else s)
  else if b = 4 then (if s.cfg.form = .D then s else s.writeHubReg off v)
  else s

/-- The register write of a core's store: Taproot supervisor code, which reaches no debug block (14_package.md R387). -/
def coreReg (s : State) (_ : Fin 4) (pa : Nat) (v : W64) : State := s.writeReg pa v false

/-- Die and local master number of a writer (12_die.md R337). -/
def writerDie : Writer → Fin 4
  | .taproot d _ => d | .security d => d | .port d _ => d

def writerNo : Writer → Nat
  | .taproot _ t => 64 + t.val | .security _ => 82 | .port _ _ => 69

def writerWrites : Writer → Bool
  | .taproot _ _ => true | .security _ => true | .port _ w => w

def writerTap : Writer → Bool
  | .taproot _ _ => true | .security _ => false | .port _ _ => false

def writerPort : Writer → Bool
  | .taproot _ _ => false | .security _ => false | .port _ _ => true

/-- What a read of the debug port finds at an address: its data register then holds the address and the data (14_package.md R387). -/
def State.portRead (s : State) (d : Fin 4) (pa : Nat) : State :=
  let r : Nat × State := if bits pa 45 44 = 3 then ((s.readReg pa true).toNat, s) else (s.bridgePass d (lineOf pa)).readHome pa 8
  r.2.modHub fun h => { h with portAddr := BitVec.ofNat 64 pa, portData := BitVec.ofNat 64 r.1 }

/-- A write of 8 bytes to memory or beyond it by a writer that uses no cache; a fabric write of a Taproot core is lost as its stores are, and one
into a reduction window is refused as they are (15_fabric.md R408, R412). -/
def State.masterStore (s : State) (x : Writer) (pa : Nat) (v : W64) (fab : Bool) : State :=
  match x, fab with
  | .taproot d t, true =>
    if (s.windowOf pa).isSome || (s.windowOf (pa + 7)).isSome then s
    else s.fabricStore d (Fin.ofNat 68 (64 + t.val)) (s.core d (Fin.ofNat 68 (64 + t.val))).bseq false (cellsOf pa v.toNat 8)
  | x, _ => s.dieWrite (writerDie x) (cellsOf pa v.toNat 8)

/-- A master's access that a check refuses: logged (12_die.md R339); a Taproot write to a fabric address that no link leads to is lost
(14_package.md R365; 15_fabric.md R408). -/
def State.masterRefused (s : State) (x : Writer) (pa : Nat) (e : XErr) : State :=
  match e with
  | .fabUnlinked => if writerTap x then s.fabricLost (writerDie x) pa [] else s
  | e => e.log s

/-- The debug port's data register takes what it writes (14_package.md R387; DEDUCED, log 28). -/
def State.portLatch (s : State) (x : Writer) (pa : Nat) (v : W64) : State :=
  if writerPort x && writerWrites x then s.modHub fun h => { h with portAddr := BitVec.ofNat 64 pa, portData := v } else s

/-- REGISTER_WRITE: an 8-byte access by a writer, checked as its master: a register of region 3, or what else an address names. One that is
refused has no effect and is logged (12_die.md R336, R338, R339). The port reaches nothing while it is closed (14_package.md R387). -/
def State.masterAccess (s0 : State) (x : Writer) (pa : Nat) (v : W64) : State :=
  if (writerPort x && !s0.portOpen) || !s0.hasDie (writerDie x).val then s0
  else
    let s := s0.portLatch x pa v
    let kind : AccKind := if writerWrites x then .write else .read
    let check (a : Nat) : Except XErr Place := s.checkPhys (writerDie x) (writerNo x) true kind a 8
    match check pa, if pa / 64 = (pa + 7) / 64 then check pa else check (pa + 7) with
    | .error e, _ => s.masterRefused x pa e
    | .ok _, .error e => s.masterRefused x pa e
    | .ok p, .ok _ =>
      if !writerWrites x then s.portRead (writerDie x) pa
      else
        match p with
        | .reg => s.writeReg pa v (!writerTap x)
        | .mem => s.masterStore x pa v false
        | .pcie => s
        | .fabric => s.masterStore x pa v true

end Sys2Proof.Machine
end

