-- ==== Sys2Proof/Machine/CoreEvents.lean ====
section
/-! DEFINITION. Steps of a core's own agents: landing writes, its memory pipeline, its engines, asynchronous traps, statistics
(01_bundles.md R32, R34; 04_control_scalar.md R102, R103; 07_matrix_ops.md R192 to R211; 08_core_memory.md R236 to R241;
09_core_traps.md R254, R268, R275; 10_cluster.md R280, R281, R289, R298; 11_ordering.md R310; 12_die.md R330, R341). -/

namespace Sys2Proof.Machine

open Sys2Proof

/-- The engines and the pipeline of a frozen core stay where they are (R268). -/
def State.unfrozen (s : State) (d : Fin 4) (c : Fin 68) (f : State → State) : State := if (s.core d c).dbg.frozen then s else f s

/-- Performs entry `n` of the memory pipeline if it is of a kind. -/
def State.performIf (which : MemKind → Bool) (d : Fin 4) (c : Fin 68) (n : Nat) (s : State) : State :=
  s.unfrozen d c fun s =>
    match (s.core d c).memq[n]? with
    | some m => if which m.kind then s.perform coreReg d c n else s
    | none => s

/-- Loads: results that come from memory. -/
def MemKind.isResult : MemKind → Bool
  | .load _ _ _ _ _ _ => true
  | _ => false

/-- Entries without a result that are no release: stores, line forms, hints. -/
def MemKind.isPlain : MemKind → Bool
  | .store _ _ _ => true
  | .addStore _ => true
  | .flushLine _ _ => true
  | .prefetch _ => true
  | .mark => true
  | _ => false

def MemKind.isReleaseStore : MemKind → Bool
  | .release _ _ _ => true
  | .flush _ _ => true
  | _ => false

def MemKind.isWordStep : MemKind → Bool
  | .arrive (.remSet _) _ _ _ => false
  | .arrive _ _ _ _ => true
  | _ => false

def MemKind.isSetStep : MemKind → Bool
  | .arrive (.remSet _) _ _ _ => true
  | _ => false

def MemKind.isArm : MemKind → Bool
  | .larm _ _ _ => true
  | _ => false

def MemKind.isPatch : MemKind → Bool
  | .lpatch _ _ _ => true
  | _ => false

/-- What a BTOK waits for has happened: its engine has retired every command of earlier bundles, or every interlocked result of that vector
slot from earlier bundles has landed (R102). A BTOK that a trap has set aside waits for the return (09_core_traps.md R261). -/
def Btok.ready (b : Btok) (k : Core) : Bool :=
  let slotDone (n : Nat) : Bool := !(k.memq.any fun m => m.slot == n && m.kind.dst.isSome && decide (m.bseq < b.bseq)) &&
    !(k.held.any fun h => h.slot == n && h.handler == b.handler && decide (h.iss < b.iss))
  let copyDone (y : Fin 2) : Bool := !((k.eng.yq[y]).any fun m => decide (m.bseq < b.bseq))
  b.handler == k.handler &&
    match b.eng with
    | .m => !(k.eng.mq.any fun m => decide (m.bseq < b.bseq))
    | .y0 => copyDone 0
    | .y1 => copyDone 1
    | .v0 => slotDone 3
    | .v1 => slotDone 4

/-- A pending BTOK write arrives: bD := bD + 32 × token of the window it closes (R102). -/
def Core.deliverBtok (k : Core) (n : Nat) : Core :=
  match k.eng.btoks[n]? with
  | none => k
  | some b =>
    if !b.ready k then k
    else
      let x := k.eng
      let k := { k with eng := { x with btoks := listDrop x.btoks n, toks := x.toks.filter fun t => !(t.1 == b.eng && t.2.1 == b.win) } }
      k.arrive b.iss 0 b.handler (.b b.dst) (b.base + BitVec.ofNat 64 (32 * x.token b.eng b.win)).toNat 0

/-- INTERLOCKED_RESULT_ARRIVAL (R34): result `n` of the pipeline, or behind them a pending BTOK. -/
def State.resultArrives (s : State) (d : Fin 4) (c : Fin 68) (n : Nat) : State :=
  let len := (s.core d c).memq.length
  if n < len then s.performIf MemKind.isResult d c n else s.unfrozen d c fun s => s.modCore d c fun k => k.deliverBtok (n - len)

/-- ASYNC_TRAP_TAKE (R254): at the next boundary in thread mode. -/
def State.asyncTake (s : State) (d : Fin 4) (c : Fin 68) : State :=
  let k := s.core d c
  if k.run ≠ .running || k.dbg.frozen || k.dbg.stepping || k.owed.isSome || k.handler || isTaproot c || (s.die d).holds c || !k.asyncPending then s
  else
    match s.settleNext d c with
    | (s, some counted) => s.takeAsyncTrap d c counted
    | (s, none) => s

/-- STAT_RECORD_WRITE (R275): a record that cannot be written for another reason than a full buffer waits until software writes STATHEAD,
STATBASE or STATCTL. -/
def State.statStep (s : State) (d : Fin 4) (c : Fin 68) : State :=
  let k := s.core d c
  if k.dbg.frozen || k.statStuck || !k.memq.isEmpty || k.stats.isEmpty || isTaproot c then s
  else
    match s.statWrite d c with
    | .done t => t
    | .full => s
    | .late t => t
    | .failed t => t.modCore d c fun k => { k with statStuck := true }

/-- A step of one of a core's engines. In a single step of the debug port an engine moves once, or as far as the sequencer waits for
(09_core_traps.md R270; an engine's own cycles are not modelled: DEDUCED, log 32). -/
def State.engineStep (e : Eng) (f : State → State) (d : Fin 4) (c : Fin 68) (s : State) : State :=
  s.unfrozen d c fun s =>
    let k := s.core d c
    if !k.dbg.stepping then f s
    else if k.dbg.moved.contains e && k.waitc.isNone then s
    else
      let t := f s
      if (t.core d c).eng = k.eng then t else t.modCore d c fun k => { k with dbg := { k.dbg with moved := e :: k.dbg.moved } }

/-- The matrix engine takes a step of its own unless the die holds it (12_die.md R341); what it pops or pushes may end a wait of the core
(Table 9-10). -/
def State.matStep (starts : Bool) (f : Core → Core) : Fin 4 → Fin 68 → State → State :=
  fun d c => State.engineStep .m (fun s =>
    if starts && (s.die d).holds c then s else (s.modCore d c f).noteCore (.engine d c .m) d c) d c

def execWriteLanding (d : Fin 4) (c : Fin 68) (s : State) : Host.Outcome State Fault Refusal :=
  powered (fun s => s.unfrozen d c fun s => s.modCore d c Core.landDue) s

def execInterlockedResultArrival (d : Fin 4) (c : Fin 68) (n : Nat) (s : State) : Host.Outcome State Fault Refusal :=
  powered (fun s => s.resultArrives d c n) s

def execAsyncTrapTake (d : Fin 4) (c : Fin 68) (s : State) : Host.Outcome State Fault Refusal := powered (fun s => s.asyncTake d c) s

def execHaltedCauseDelivery (d : Fin 4) (c : Fin 68) (s : State) : Host.Outcome State Fault Refusal := powered (fun s => s.deliverHalted d c) s

def execStatRecordWrite (d : Fin 4) (c : Fin 68) (s : State) : Host.Outcome State Fault Refusal := powered (fun s => s.statStep d c) s

def execLookupCommandStart (d : Fin 4) (c : Fin 68) (s : State) : Host.Outcome State Fault Refusal :=
  powered (State.matStep true (fun k => k.startMat MatCmd.isLookup) d c) s

def execLookupCommandRetire (d : Fin 4) (c : Fin 68) (s : State) : Host.Outcome State Fault Refusal :=
  powered (State.matStep false Core.retireLookup d c) s

/-- MACLR takes effect at retirement (R205, R208). -/
def isMaclr : MatrixOp → Bool
  | .maclr _ _ _ => true
  | _ => false

def isMacwr : MatrixOp → Bool
  | .macwr _ _ _ => true
  | _ => false

def isMbias : MatrixOp → Bool
  | .mbias _ _ _ => true
  | _ => false

def execMaclrRetire (d : Fin 4) (c : Fin 68) (s : State) : Host.Outcome State Fault Refusal :=
  powered (State.matStep true (fun k => k.retireAcc isMaclr) d c) s

def execMacwrRetire (d : Fin 4) (c : Fin 68) (s : State) : Host.Outcome State Fault Refusal :=
  powered (State.matStep true (fun k => k.retireAcc isMacwr) d c) s

def execMbiasRetire (d : Fin 4) (c : Fin 68) (s : State) : Host.Outcome State Fault Refusal :=
  powered (State.matStep true (fun k => k.retireAcc isMbias) d c) s

def execMmaskStart (d : Fin 4) (c : Fin 68) (s : State) : Host.Outcome State Fault Refusal :=
  powered (State.matStep true (fun k => k.startMat MatCmd.isMask) d c) s

def execMmaskRetire (d : Fin 4) (c : Fin 68) (s : State) : Host.Outcome State Fault Refusal :=
  powered (State.matStep false Core.retireMask d c) s

def execCopyChunk (d : Fin 4) (c : Fin 68) (y : Bool) (s : State) : Host.Outcome State Fault Refusal :=
  powered (State.engineStep (copyEng y) (fun s => s.copyChunk d c y) d c) s

def execCopyCompletionRecord (d : Fin 4) (c : Fin 68) (y : Bool) (s : State) : Host.Outcome State Fault Refusal :=
  powered (State.engineStep (copyEng y) (fun s => s.copyCompletion d c y) d c) s

def execYpushFinish (d : Fin 4) (c : Fin 68) (y : Bool) (s : State) : Host.Outcome State Fault Refusal :=
  powered (State.engineStep (copyEng y) (fun s => s.ypushFinish d c y) d c) s

def execReleasePerformed (d : Fin 4) (c : Fin 68) (n : Nat) (s : State) : Host.Outcome State Fault Refusal :=
  powered (State.performIf MemKind.isReleaseStore d c n) s

def execStoreQueueDrain (d : Fin 4) (c : Fin 68) (n : Nat) (s : State) : Host.Outcome State Fault Refusal :=
  powered (State.performIf MemKind.isPlain d c n) s

def execBarrierStep (d : Fin 4) (c : Fin 68) (n : Nat) (s : State) : Host.Outcome State Fault Refusal :=
  powered (State.performIf MemKind.isWordStep d c n) s

def execSliceSetRequest (d : Fin 4) (c : Fin 68) (n : Nat) (s : State) : Host.Outcome State Fault Refusal :=
  powered (State.performIf MemKind.isSetStep d c n) s

def execArmStep (d : Fin 4) (c : Fin 68) (n : Nat) (s : State) : Host.Outcome State Fault Refusal :=
  powered (State.performIf MemKind.isArm d c n) s

def execPatchStep (d : Fin 4) (c : Fin 68) (n : Nat) (s : State) : Host.Outcome State Fault Refusal :=
  powered (State.performIf MemKind.isPatch d c n) s

def execL1Writeback (d : Fin 4) (c : Fin 68) (line : Nat) (evict : Bool) (s : State) : Host.Outcome State Fault Refusal :=
  powered (fun s => s.l1Back d c line evict) s

def execL2Writeback (d : Fin 4) (k : Fin 8) (line : Nat) (evict : Bool) (s : State) : Host.Outcome State Fault Refusal :=
  powered (fun s => s.l2Back d k line evict) s

def execL1MissFill (d : Fin 4) (c : Fin 68) (line : Nat) (s : State) : Host.Outcome State Fault Refusal :=
  powered (fun s => s.unfrozen d c fun s => s.missFill d c line) s

def execPageWalk (d : Fin 4) (c : Fin 68) (va : BitVec 64) (write : Bool) (s : State) : Host.Outcome State Fault Refusal :=
  powered (fun s => s.walkFor d c va write) s

def execThreadCompletion (d : Fin 4) (c : Fin 68) (s : State) : Host.Outcome State Fault Refusal := powered (fun s => s.threadDone d c) s

end Sys2Proof.Machine
end

