-- ==== Sys2Proof/Machine/Loader.lean ====
section
/-! DEFINITION. Loading an image, and binding its portable sections (02_encodings.md R58, R60; 14_package.md R391 to R395, R398 to R400;
DEDUCED, log 29). -/

namespace Sys2Proof.Machine

open Sys2Proof

/-- Vector source fields of an operation (01_bundles.md R15). -/
def vectorSources : VectorOp → List (Fin 40)
  | .vadd _ va vb _ => [va, vb]
  | .vsub _ va vb _ => [va, vb]
  | .vmul _ va vb _ => [va, vb]
  | .vmulh _ va vb _ => [va, vb]
  | .vadds _ va vb _ => [va, vb]
  | .vsubs _ va vb _ => [va, vb]
  | .vmin _ va vb _ => [va, vb]
  | .vmax _ va vb _ => [va, vb]
  | .vabs _ va _ => [va]
  | .vneg _ va _ => [va]
  | .vand _ va vb _ => [va, vb]
  | .vor _ va vb _ => [va, vb]
  | .vxor _ va vb _ => [va, vb]
  | .vnot _ va _ => [va]
  | .vshl _ va vb _ => [va, vb]
  | .vshr _ va vb _ => [va, vb]
  | .vsra _ va vb _ => [va, vb]
  | .vavg _ va vb _ => [va, vb]
  | .vabsd _ va vb _ => [va, vb]
  | .vclz _ va _ => [va]
  | .vpopc _ va _ => [va]
  | .vmov _ va _ => [va]
  | .vrsum _ va _ => [va]
  | .vrmax _ va _ => [va]
  | .vrmin _ va _ => [va]
  | .vperm _ va vb _ => [va, vb]
  | .vzip _ va vb _ => [va, vb]
  | .vunzip _ va vb _ => [va, vb]
  | .vmaxexp va _ => [va]
  | .vseedx _ va _ => [va]
  | .vseedc _ va vb _ => [va, vb]
  | .vfma _ va vb _ vc _ => [va, vb, vc]
  | .vfms _ va vb _ vc _ => [va, vb, vc]
  | .vfnma _ va vb _ vc _ => [va, vb, vc]
  | .vfnms _ va vb _ vc _ => [va, vb, vc]
  | .vsel _ va vb _ _ => [va, vb]
  | .vaddr _ va vb _ _ => [va, vb]
  | .vmulr _ va vb _ _ => [va, vb]
  | .vcvt _ va _ _ _ _ _ => [va]
  | .vaddi _ va _ _ => [va]
  | .vmuli _ va _ _ => [va]
  | .vandi _ va _ _ => [va]
  | .vori _ va _ _ => [va]
  | .vshli _ va _ _ => [va]
  | .vshri _ va _ _ => [va]
  | .vsrai _ va _ _ => [va]
  | .vcmpeq _ va vb _ => [va, vb]
  | .vcmpne _ va vb _ => [va, vb]
  | .vcmplt _ va vb _ => [va, vb]
  | .vcmple _ va vb _ => [va, vb]
  | .vcmpgt _ va vb _ => [va, vb]
  | .vcmpge _ va vb _ => [va, vb]
  | .vcmpun _ va vb _ => [va, vb]
  | .vclass _ va vb _ => [va, vb]
  | .vexp _ va _ => [va]
  | .vexp2 _ va _ => [va]
  | .vlog _ va _ => [va]
  | .vlog2 _ va _ => [va]
  | .vrcp _ va _ => [va]
  | .vrsq _ va _ => [va]
  | .vsqrt _ va _ => [va]
  | .vtanh _ va _ => [va]
  | .vsigm _ va _ => [va]
  | .vsilu _ va _ => [va]
  | .vgelu _ va _ => [va]
  | .vsin _ va _ => [va]
  | .vcos _ va _ => [va]
  | .verf _ va _ => [va]
  | .vtbld _ va vb => [va, vb]
  | .vgath _ _ _ vi _ => [vi]
  | .vscat _ _ _ vi _ => [vi]
  | .vscata _ _ _ vi _ => [vi]
  | .vwiden _ va _ => [va]
  | .vnarrow _ va vb _ => [va, vb]
  | .vpack _ va vb _ => [va, vb]
  | .vunpack _ va _ => [va]
  | .vsumw _ va vb _ => [va, vb]
  | .vdot2 _ va vb _ => [va, vb]
  | .vscale _ va vb _ => [va, vb]
  | .vround _ va _ => [va]
  | .vfloor _ va _ => [va]
  | .vslide _ va vb _ => [va, vb]
  | .vrev _ va _ => [va]
  | .vnop | .vbcst _ _ _ | .vpand _ _ _ | .vpor _ _ _ | .vpxor _ _ _ | .vpandn _ _ _ | .vtwr _ _ _ _ _ _ | .vtrd _ _ _ _ _ _
  | .vld _ _ _ _ _ | .vst _ _ _ _ _ | .vldb _ _ _ _ _ | .vldnt _ _ _ _ _ | .vstnt _ _ _ _ _ => []

/-- Slots an APF unit may take (R399, rules 1 and 2); the first eight units of Table 14-16 in order, with the pinned ones. -/
def unitSlots : Nat → List Nat
  | 0 => [0]
  | 1 => [1]
  | 2 => [2]
  | 3 => [3, 4]
  | 4 => [3]
  | 5 => [4]
  | 6 => [5]
  | 7 => [6, 7]
  | 8 => [6]
  | 9 => [7]
  | _ => []

/-- A move of an APF section (Table 14-16). -/
structure Move where
  unit : Nat
  bus : Nat
  flags : Nat
  stall : Nat
  word : Nat
  ext : Nat
  deriving DecidableEq, Repr

def readMove (m : Bytes) (a : Nat) : Move :=
  ⟨readLE m a 1, readLE m (a + 1) 1, readLE m (a + 2) 1, readLE m (a + 3) 1, readLE m (a + 4) 4, readLE m (a + 8) 4⟩

def Move.last (x : Move) : Bool := x.flags.testBit 0
def Move.aligned (x : Move) : Bool := x.flags.testBit 1
def Move.skip (x : Move) : Nat := bits x.flags 3 2

/-- An invalid UNIT, BUS or FLAGS value, or a STALL that no head word holds (R398, R400; 02_encodings.md R58). -/
def Move.bad (x : Move) : Bool :=
  decide (x.unit > 9) || decide (x.bus > 7) || decide (x.flags > 15) || decide (x.stall > 15) || (!x.last && x.stall != 0)

/-- Splits moves into instructions, each closed by a move with END; the moves behind the last END are left over. -/
def splitMoves : List Move → List Move → List (List Move) × List Move
  | acc, [] => ([], acc)
  | acc, x :: l =>
    if x.last then let r := splitMoves [] l; ((acc ++ [x]) :: r.1, r.2) else splitMoves (acc ++ [x]) l

def insertMove (x : Move) : List Move → List Move
  | [] => [x]
  | y :: l => if x.bus ≤ y.bus then x :: y :: l else y :: insertMove x l

/-- Moves in ascending BUS. -/
def byBus (l : List Move) : List Move := l.foldr insertMove []

/-- Gives each move its slot: pinned moves theirs, the others the free slots of their class in ascending BUS (R399). None where a slot is
taken twice or a class has too few. -/
def bindSlots (l : List Move) : Option (List (Nat × Move)) :=
  let pinned := l.filterMap fun x => match unitSlots x.unit with | [k] => some (k, x) | _ => none
  let free := (byBus l).filter fun x => (unitSlots x.unit).length == 2
  let place (r : Option (List (Nat × Move))) (x : Move) : Option (List (Nat × Move)) :=
    r.bind fun got => ((unitSlots x.unit).find? fun k => !(got.any fun g => g.1 == k)).map fun k => got ++ [(k, x)]
  if repeats (pinned.map (·.1)) then none else free.foldl place (some pinned)

/-- The decoded slot of a move, with its extension word where its format takes one (R399 rule 5, R400). -/
def Move.slot (k : Nat) (x : Move) : Option Slot :=
  let p : Profile := ⟨.g3, false⟩
  match decodeFor p (Fin.ofNat 8 k) x.word none with
  | .ok y => if x.ext = 0 then some y else none
  | .error _ => match decodeFor p (Fin.ofNat 8 k) x.word (some x.ext) with | .ok y => some y | .error _ => none

/-- An APF instruction bound to its slots, in ascending slot order. -/
structure BoundInst where
  slots : List (Nat × Slot)
  skip : Nat
  stall : Nat
  aligned : Bool

/-- Binds one instruction; none where R400 refuses it by itself. -/
def bindInst (l : List Move) : Option BoundInst :=
  if l.any Move.bad || repeats (l.map (·.bus)) then none
  else
    (bindSlots l).bind fun got =>
      let slots := (List.range 8).filterMap fun k => (got.find? fun g => g.1 == k).map fun g => (k, g.2.slot k)
      if slots.any fun x => x.2.isNone then none
      else some
        { slots := slots.filterMap fun x => x.2.map fun y => (x.1, y)
          skip := (l.getLast?.map Move.skip).getD 0
          stall := (l.getLast?.map (·.stall)).getD 0
          aligned := l.any Move.aligned }

/-- Whether a bound slot names one of some bypass latches. -/
def namesLatch (codes : List Nat) (x : Slot) : Bool :=
  match x.op with
  | .v _ o => (vectorSources o).any fun n => codes.contains n.val
  | .c _ | .s _ | .a _ | .m _ | .y _ _ => false

/-- Words of a bound bundle: head word, slot words, extension words. -/
def BoundInst.size (b : BoundInst) : Nat := 1 + b.slots.length + (b.slots.filter fun x => x.2.encode.2.2.isSome).length

/-- The word of each head word from the section's start, an aligned instruction at a multiple of eight words, and the end (R399 rule 5). -/
def headPlaces : Nat → List BoundInst → List Nat
  | n, [] => [n]
  | n, b :: l => let n := if b.aligned then (n + 7) / 8 * 8 else n; n :: headPlaces (n + b.size) l

/-- PBR's instruction distance becomes the distance in words (R399 rule 4); none outside I18 or outside the section. -/
def rebase (places : List Nat) (i : Nat) (x : Slot) : Option Slot :=
  match x.op with
  | .c (.pbr bd off) =>
    let t := (i : Int) + off.toInt
    if t < 0 then none
    else match places[t.toNat]?, places[i]? with
      | some b, some a =>
        let w : Int := (b : Int) - a
        if -131072 ≤ w ∧ w < 131072 then some ⟨x.g, .c (.pbr bd (BitVec.ofInt 18 w))⟩ else none
      | _, _ => none
  | _ => some x

/-- The words of a bundle; `stop` fills up to a 32-byte boundary from word `at0`. -/
def BoundInst.words (b : BoundInst) (at0 : Nat) (stop : Bool) : List Nat :=
  let enc := b.slots.map fun x => (x.1, x.2.encode)
  let present := enc.foldl (fun n x => n + 2 ^ x.1) 0
  let ext := enc.foldl (fun n x => n + (if x.2.2.2.isSome then 2 ^ x.1 else 0)) 0
  let head := 0b10110 * 2 ^ 27 + b.skip * 2 ^ 21 + (if stop then 2 ^ 20 else 0) + b.stall * 2 ^ 16 + ext * 2 ^ 8 + present
  let body := head :: enc.flatMap fun x => x.2.2.1 :: x.2.2.2.toList
  let n := at0 + body.length
  body ++ List.replicate (if stop then (n + 7) / 8 * 8 - n else 0) 0

/-- The words of all bundles of a section; STOP stands on the bundle before an aligned one. -/
def bundleWords (places : List Nat) : Nat → List BoundInst → List Nat
  | _, [] => []
  | i, b :: l =>
    b.words (places.getD i 0) (match l with | y :: _ => y.aligned | [] => false) ++ bundleWords places (i + 1) l

/-- Denoijan on the moves of a section (R399, R400): the words it binds, or the APF instruction it names. -/
def bindSection (moves : List Move) (ninst : Nat) : Except Nat (List Nat) :=
  let r := splitMoves [] moves
  let raw := r.1.take ninst
  let bound := raw.map bindInst
  let v := [32, 33]
  let y := [37, 38]
  let names (c : List Nat) : Bool := bound.any fun b => match b with | some b => b.slots.any fun x => namesLatch c x.2 | none => false
  let free (c : Nat) (l : List Move) : Bool := l.any fun x => x.unit == c
  let bad := (raw.zip bound).findIdx? fun x => x.2.isNone || (names v && free 3 x.1) || (names y && free 7 x.1)
  match bad with
  | some i => .error i
  | none =>
    if raw.length < ninst then .error raw.length
    else if !r.2.isEmpty then .error r.1.length
    else
      let insts := bound.filterMap id
      let places := headPlaces 0 insts
      let moved := insts.zipIdx.map fun b => b.1.slots.map fun x => (x.1, rebase places b.2 x.2)
      match moved.findIdx? fun l => l.any fun x => x.2.isNone with
      | some i => .error i
      | none =>
        let fixed := (insts.zip moved).map fun b => { b.1 with slots := b.2.filterMap fun x => x.2.map fun y => (x.1, y) }
        .ok (bundleWords places 0 fixed)

/-- A section header (Table 14-14). -/
structure Sect where
  type : Nat
  flags : Nat
  off : Nat
  size : Nat
  gen : Nat
  reserved : Bool
  deriving DecidableEq, Repr

def readSect (m : Bytes) (a : Nat) : Sect :=
  ⟨readLE m a 2, readLE m (a + 2) 2, readLE m (a + 8) 8, readLE m (a + 16) 8, readLE m (a + 25) 1,
    decide (readLE m (a + 2) 2 ≥ 16) || decide (readLE m (a + 24) 1 > 16) || readLE m (a + 26) 6 != 0⟩

/-- A note record (R394): TYPE, FLAGS, the payload's value, and whether it ends inside the note records and the image. -/
structure Note where
  type : Nat
  flags : Nat
  val : Nat
  whole : Bool
  deriving DecidableEq, Repr

def readNotes (m : Bytes) (lim : Nat) : Nat → Nat → Nat → List Note
  | 0, _, _ => []
  | n + 1, a, stop =>
    if a ≥ stop then []
    else
      let len := readLE m (a + 4) 4
      let next := a + 8 + (len + 7) / 8 * 8
      ⟨readLE m a 2, readLE m (a + 2) 2, readLE m (a + 8) (Nat.min len 8), decide (next ≤ stop ∧ next ≤ lim)⟩ ::
        (if next ≤ stop ∧ next ≤ lim then readNotes m lim n next stop else [])

/-- Whether some engine core has at least the maxima of a note of type 2. -/
def State.meetsMaxima (s : State) (v : Nat) : Bool :=
  (List.finRange 4).any fun d => s.hasDie d.val && (List.range 64).any fun c => s.enabled d c && (s.maxima d c).fits v

/-- Whether a note refuses the load (R394). -/
def State.noteRefuses (s : State) (n : Note) : Bool :=
  n.flags.testBit 0 &&
    match n.type with
    | 1 => decide (n.val ≥ 8)
    | 2 => !s.meetsMaxima n.val
    | 3 => false
    | 4 => n.val != 1
    | _ => true

/-- APF instructions of a section. -/
def apfCount (m : Bytes) (at0 : Nat) : Nat := readLE m (at0 + 8) 4

/-- Whether the section that a kernel names as DATASEC holds code of another generation than the kernel's (02_encodings.md R60). A section of
another type names no generation, 0xFFFF no section (DEDUCED, log 29). -/
def dataGenBad (sects : List Sect) (sec gen : Nat) : Bool :=
  match sects[sec]? with
  | some x => sec != 0xFFFF && (x.type == 1 || x.type == 7) && x.gen != gen
  | none => false

/-- A kernel entry that fails the check of GEN, ENTRYOFF and SHAPE (R393, Table 14-15), one whose sections name different generations among them
(02_encodings.md R60). -/
def kernelBad (m : Bytes) (base a : Nat) (sects : List Sect) : Bool :=
  let gen := readLE m (a + 4) 1
  match sects[readLE m (a + 6) 2]? with
  | none => true
  | some x =>
    gen == 0 || decide (gen > 3) || gen != x.gen || !(x.type == 1 || x.type == 7) || dataGenBad sects (readLE m (a + 48) 2) gen ||
      decide (readLE m (a + 8) 8 ≥ (if x.type = 7 then apfCount m (base + x.off) else x.size)) ||
      (List.range 4).any fun i => shapeBad (readLE m (a + 16 + 8 * i) 8)

/-- A section whose GEN is wrong for its type (Table 14-14, R393). -/
def sectGenBad (x : Sect) : Bool :=
  if x.type = 1 then decide (x.gen < 1) || decide (x.gen > 3)
  else if x.type = 7 then x.gen != 3
  else decide (1 ≤ x.type ∧ x.type ≤ 8) && x.gen != 0

/-- A type 7 section bound (R398): the words, or the APF instruction named. A head of the section unlike R398 names instruction 0. -/
def bindApf (m : Bytes) (at0 : Nat) (size : Nat) : Except Nat (List Nat) :=
  if size < 16 ∨ readLE m at0 4 ≠ 0x00465041 ∨ readLE m (at0 + 4) 2 ≠ 1 ∨ readLE m (at0 + 6) 2 ≠ 0 ∨ readLE m (at0 + 12) 4 ≠ 0 then .error 0
  else bindSection ((List.range ((size - 16) / 12)).map fun i => readMove m (at0 + 16 + 12 * i)) (apfCount m at0)

/-- Whether the image header fails the first check (Table 14-13): MAGIC, VERSION, reserved fields, counts, offsets and tables outside
IMGLEN. Notes that begin inside and end outside it are TRUNCATED (Table 14-15). -/
def headerBad (m : Bytes) (base size : Nat) : Bool :=
  let f (off n : Nat) : Nat := readLE m (base + off) n
  let len := f 48 8
  let out (off n : Nat) : Bool := decide (off + n > len)
  decide (size < 64) || f 0 4 != 0x31494B4C || f 4 2 != 1 || f 6 2 != 0 || f 36 12 != 0 || f 56 8 != 0 || f 12 2 == 0 || decide (f 12 2 > 1024) ||
    f 14 2 == 0 || decide (f 14 2 > 256) || decide (len > size) || decide (len < 64) || out (f 8 4) (32 * f 12 2) || out (f 16 4) (64 * f 14 2) ||
    decide (f 20 4 > len) || out (f 28 4) (f 32 4)

/-- The sections that a load which passes every check maps: of a known type, with LOAD (R392, R395). -/
def mappedSects (l : List Sect) : List Nat :=
  (List.range l.length).filter fun i => match l[i]? with
    | some x => decide (1 ≤ x.type ∧ x.type ≤ 8) && x.flags.testBit 1
    | none => false

/-- The checks of Table 14-15 in order (R395). -/
def State.loadStatus (s : State) (base size : Nat) : LoadResult :=
  let m := s.mem
  let f (off n : Nat) : Nat := readLE m (base + off) n
  if headerBad m base size then ⟨1, 0, none, [], []⟩
  else
    let len := f 48 8
    let sects := (List.range (f 12 2)).map fun i => readSect m (base + f 8 4 + 32 * i)
    let kern (i : Nat) : Nat := base + f 16 4 + 64 * i
    let kernels := List.range (f 14 2)
    let notes := readNotes m (base + len) (f 24 4) (base + f 20 4) (base + f 20 4 + f 24 4)
    let sectAt (i : Nat) : Nat := match sects[i]? with | some x => base + x.off | none => 0
    match sects.findIdx? (·.reserved) with
    | some i => ⟨1, i, none, [], []⟩
    | none =>
    match kernels.find? fun i => readLE m (kern i + 5) 1 != 0 || readLE m (kern i + 50) 14 != 0 with
    | some i => ⟨1, i, none, [], []⟩
    | none =>
    match sects.findIdx? fun x => decide (x.off > len) with
    | some i => ⟨1, i, none, [], []⟩
    | none =>
    match sects.findIdx? fun x => decide (x.off + x.size > len) with
    | some i => ⟨6, i, none, [], []⟩
    | none =>
    match notes.findIdx? fun n => !n.whole with
    | some i => ⟨6, i, none, [], []⟩
    | none =>
    match sects.findIdx? fun x => (x.type == 0 || decide (x.type > 8)) && x.flags.testBit 0 with
    | some i => ⟨3, i, none, [], []⟩
    | none =>
    match notes.findIdx? s.noteRefuses with
    | some i => ⟨4, i, none, [], []⟩
    | none =>
    match sects.findIdx? sectGenBad with
    | some i => ⟨5, i, none, [], []⟩
    | none =>
    match kernels.find? fun i => kernelBad m base (kern i) sects with
    | some i => ⟨5, i, none, [], []⟩
    | none =>
      let apf := sects.zipIdx.filterMap fun x => if x.1.type = 7 then some (x.2, bindApf m (sectAt x.2) x.1.size) else none
      match apf.find? fun x => match x.2 with | .error _ => true | .ok _ => false with
      | some (i, .error n) => ⟨7, i, some n, [], []⟩
      | _ => ⟨0, 0, none, apf.filterMap fun x => match x.2 with | .ok w => some (x.1, w) | .error _ => none, mappedSects sects⟩

/-- LKI_LOAD: the loader checks the image of `size` bytes at `base` and answers with what it maps (R395). At which addresses it maps a section
is the operating system's choice, which no field of the image gives (DEDUCED, log 29). -/
def State.loadImage (s : State) (base size : Nat) : State := s.modHub fun h => { h with lastLoad := some (s.loadStatus base size) }

end Sys2Proof.Machine
end

