-- ==== Sys2Proof/Machine/DieEvents.lean ====
section
/-! DEFINITION. Steps of a die's services, the package, the debug port and the fabric (10_cluster.md R299; 12_die.md R324 to R341;
13_scheduling.md R355, R362; 14_package.md R363 to R402; 15_fabric.md R407 to R418). -/

namespace Sys2Proof.Machine

open Sys2Proof

def execL2EccError (d : Fin 4) (k : Fin 8) (e : EccError) (s : State) : Host.Outcome State Fault Refusal := powered (fun s => s.onDie d fun s => s.l2Error d k e) s

def execTlbinvAll (d : Fin 4) (s : State) : Host.Outcome State Fault Refusal := powered (fun s => s.onDie d fun s => s.performTlb coreReg d 0) s

def execTlbinvAsn (d : Fin 4) (s : State) : Host.Outcome State Fault Refusal := powered (fun s => s.onDie d fun s => s.performTlb coreReg d 1) s

def execTlbinvRange (d : Fin 4) (s : State) : Host.Outcome State Fault Refusal := powered (fun s => s.onDie d fun s => s.performTlb coreReg d 2) s

def execTlbinvCwPurge (d : Fin 4) (s : State) : Host.Outcome State Fault Refusal := powered (fun s => s.onDie d fun s => s.performTlb coreReg d 3) s

def execTlbinvComplete (d : Fin 4) (s : State) : Host.Outcome State Fault Refusal := powered (fun s => s.onDie d fun s => s.completeTlb coreReg d) s

def execPgansMapped (d : Fin 4) (tag : Nat) (s : State) : Host.Outcome State Fault Refusal := powered (fun s => s.onDie d fun s => s.pageMapped d tag) s

def execPgansDeclined (d : Fin 4) (tag : Nat) (s : State) : Host.Outcome State Fault Refusal := powered (fun s => s.onDie d fun s => s.pageDeclined d tag) s

def execPreload (d : Fin 4) (r : Fin 8) (s : State) : Host.Outcome State Fault Refusal := powered (fun s => s.onDie d fun s => s.preloadRange d r) s

def execPinRangeWrite (d : Fin 4) (r : Fin 8) (v : BitVec 64) (s : State) : Host.Outcome State Fault Refusal :=
  powered (fun s => s.onDie d fun s => s.writePin d r v) s

def execAtlockSet (d : Fin 4) (s : State) : Host.Outcome State Fault Refusal := powered (fun s => s.onDie d fun s => s.modDie d fun x => x.lockTables 1) s

def execAtlogClear (d : Fin 4) (s : State) : Host.Outcome State Fault Refusal :=
  powered (fun s => s.onDie d fun s => s.modDie d fun x => x.clearLog (BitVec.ofNat 64 (2 ^ 63))) s

def execAccessTableWrite (d : Fin 4) (off : Nat) (v : BitVec 64) (s : State) : Host.Outcome State Fault Refusal :=
  powered (fun s => s.onDie d fun s => s.modDie d fun x => x.writeTables off v) s

def execEbudgetWrite (d : Fin 4) (v : BitVec 64) (s : State) : Host.Outcome State Fault Refusal :=
  powered (fun s => s.onDie d fun s => s.modDie d fun x => x.writeBudget v) s

def execRegisterWrite (x : MasterAccess) (v : BitVec 64) (s : State) : Host.Outcome State Fault Refusal :=
  powered (fun s => s.masterAccess x.who x.pa v) s

def execEnergyWindowBoundary (d : Fin 4) (s : State) : Host.Outcome State Fault Refusal := powered (fun s => s.onDie d fun s => s.windowBoundary d) s

def execEnergySoftLimit (d : Fin 4) (s : State) : Host.Outcome State Fault Refusal := powered (fun s => s.onDie d fun s => s.modDie d Die.softLimit) s

def execEnergyHardHold (d : Fin 4) (s : State) : Host.Outcome State Fault Refusal := powered (fun s => s.onDie d fun s => s.modDie d Die.startHold) s

def execSchedulerPass (d : Fin 4) (s : State) : Host.Outcome State Fault Refusal := powered (fun s => s.onDie d fun s => s.pass d) s

def execNrcmdResume (d : Fin 4) (idx : BitVec 16) (s : State) : Host.Outcome State Fault Refusal := powered (fun s => s.onDie d fun s => s.nrResume d idx.toNat) s

def execNrcmdEnd (d : Fin 4) (idx : BitVec 16) (code : BitVec 32) (s : State) : Host.Outcome State Fault Refusal :=
  powered (fun s => s.onDie d fun s => s.nrEnd d idx.toNat code.toNat) s

def execNrcmdRemove (d : Fin 4) (idx : BitVec 16) (s : State) : Host.Outcome State Fault Refusal := powered (fun s => s.onDie d fun s => s.nrRemove d idx.toNat) s

def execNrcmdPreempt (d : Fin 4) (idx : BitVec 16) (s : State) : Host.Outcome State Fault Refusal := powered (fun s => s.onDie d fun s => s.nrPreempt d idx.toNat) s

/-- COLD_RESET begins with power coming back, so it runs where nothing else does. -/
def execColdReset (s : State) : Host.Outcome State Fault Refusal := .next s.coldReset

def execWarmReset (s : State) : Host.Outcome State Fault Refusal := powered State.warmReset s

def execTaprootStart (d : Fin 4) (t : Fin 4) (v : BitVec 64) (s : State) : Host.Outcome State Fault Refusal :=
  powered (fun s => s.startTaproot d t v) s

def execTaprootInterrupt (d : Fin 4) (t : Fin 4) (s : State) : Host.Outcome State Fault Refusal := powered (fun s => s.onDie d fun s => s.interruptTaproot d t) s

def execHostDoorbell (k : Fin 64) (s : State) : Host.Outcome State Fault Refusal := powered (fun s => s.doorbell k) s

def execOutdbSend (v : BitVec 64) (s : State) : Host.Outcome State Fault Refusal := powered (fun s => s.sendMsi v) s

def execInboundMsi (k : Fin 64) (s : State) : Host.Outcome State Fault Refusal := powered (fun s => s.msiIn k) s

def execPcieInboundAccess (write : Bool) (pa : Nat) (data : List (BitVec 8)) (s : State) : Host.Outcome State Fault Refusal :=
  powered (fun s => s.pcieInbound write pa data) s

def execGtrigWrite (v : BitVec 64) (s : State) : Host.Outcome State Fault Refusal := powered (fun s => s.trigger v) s

def execTriggerShadowCopy (s : State) : Host.Outcome State Fault Refusal := powered State.shadowCopy s

def execTriggerMessage (t : BitVec 64) (s : State) : Host.Outcome State Fault Refusal := powered (fun s => s.triggerMessage t) s

def execLinkDown (l : Link) (s : State) : Host.Outcome State Fault Refusal := powered (fun s => s.linkDown l) s

def execCanopyPortDown (p : Fin 8) (s : State) : Host.Outcome State Fault Refusal := powered (fun s => s.portDown p) s

def execPortTrain (p : Fin 8) (peer : Fin 16) (width : Fin 4) (ptime : BitVec 64) (s : State) : Host.Outcome State Fault Refusal :=
  powered (fun s => s.portTrain p peer width ptime) s

def execMemoryUncorrectable (d : Fin 4) (line : Nat) (s : State) : Host.Outcome State Fault Refusal := powered (fun s => s.onDie d fun s => s.memoryBad d line) s

def execPatrolScrub (d : Fin 4) (line : Nat) (err : Option Bool) (s : State) : Host.Outcome State Fault Refusal :=
  powered (fun s => s.onDie d fun s => s.scrubLine d line err) s

def execAttestReport (nonce : BitVec 256) (s : State) : Host.Outcome State Fault Refusal := powered (fun s => s.attest nonce) s

def execMrExtend (k : Fin 8) (digest : BitVec 256) (s : State) : Host.Outcome State Fault Refusal :=
  powered (fun s => s.extendMr k (beBytes digest.toNat 32)) s

def execFuseRaise (f : FuseRequest) (v : BitVec 64) (s : State) : Host.Outcome State Fault Refusal :=
  powered (fun s => s.raiseFuse f.fuse v f.signed) s

def execDebugUnlock (signed : Bool) (s : State) : Host.Outcome State Fault Refusal := powered (fun s => s.unlockDebug signed) s

def execFreeze (d : Fin 4) (c : Fin 68) (s : State) : Host.Outcome State Fault Refusal := powered (fun s => s.portCommand d c Core.dbgFreeze) s

def execResume (d : Fin 4) (c : Fin 68) (s : State) : Host.Outcome State Fault Refusal := powered (fun s => s.portCommand d c Core.dbgResume) s

def execStep (d : Fin 4) (c : Fin 68) (s : State) : Host.Outcome State Fault Refusal := powered (fun s => s.portCommand d c Core.dbgStep) s

def execStepover (d : Fin 4) (c : Fin 68) (s : State) : Host.Outcome State Fault Refusal :=
  powered (fun s => s.portCommand d c Core.dbgStepOver) s

def execRead (d : Fin 4) (c : Fin 68) (s : State) : Host.Outcome State Fault Refusal := powered (fun s => s.portCommand d c Core.dbgRead) s

def execCancel (d : Fin 4) (c : Fin 68) (s : State) : Host.Outcome State Fault Refusal := powered (fun s => s.portCommand d c Core.dbgCancel) s

def execReinject (d : Fin 4) (c : Fin 68) (s : State) : Host.Outcome State Fault Refusal :=
  powered (fun s => s.portCommand d c Core.dbgReinject) s

def execWrite (d : Fin 4) (c : Fin 68) (s : State) : Host.Outcome State Fault Refusal := powered (fun s => s.portCommand d c Core.dbgWrite) s

def execThermalThrottle (d : Fin 4) (s : State) : Host.Outcome State Fault Refusal := powered (fun s => s.onDie d fun s => s.thermalSlow d) s

def execThermalHold (d : Fin 4) (s : State) : Host.Outcome State Fault Refusal := powered (fun s => s.onDie d fun s => s.thermalHold d) s

def execThermalHoldRelease (d : Fin 4) (s : State) : Host.Outcome State Fault Refusal := powered (fun s => s.onDie d fun s => s.thermalFree d) s

def execThermtrip (d : Fin 4) (s : State) : Host.Outcome State Fault Refusal := powered (fun s => s.onDie d fun s => s.thermTrip d) s

def execFabricInboundAccess (src : Nat) (pa : Nat) (x : Inbound) (s : State) : Host.Outcome State Fault Refusal :=
  powered (fun s => s.fabricInbound src pa x) s

def execFabricWriteAck (n : Nat) (s : State) : Host.Outcome State Fault Refusal := powered (fun s => s.fabricAck n) s

def execSwitchMerge (i j : Nat) (s : State) : Host.Outcome State Fault Refusal := powered (fun s => s.switchMerge i j) s

def execHomeMerge (x : Merge) (s : State) : Host.Outcome State Fault Refusal := powered (fun s => s.homeMerge x) s

def execFabredWrite (n : Fin 16) (upper : Bool) (v : BitVec 64) (s : State) : Host.Outcome State Fault Refusal :=
  powered (fun s => s.writeWindow n upper v) s

def execRouteWrite (n : Fin 15) (v : BitVec 64) (s : State) : Host.Outcome State Fault Refusal := powered (fun s => s.writeRoute n v) s

def execFabcfgWrite (v : BitVec 64) (s : State) : Host.Outcome State Fault Refusal := powered (fun s => s.writeFabCfg v) s

def execLkiLoad (base : Nat) (size : Nat) (s : State) : Host.Outcome State Fault Refusal := powered (fun s => s.loadImage base size) s

end Sys2Proof.Machine
end

