-- ==== Sys2Proof/Machine/Dispatch.lean ====
section
/-! DEFINITION. The meaning of every instruction, arm by arm. -/

namespace Sys2Proof.Machine

open Sys2Proof

def exec (i : Instr) (s : State) : Host.Outcome State Fault Refusal :=
  match i with
  | .bundleIssue d c => Sys2Proof.Machine.execBundleIssue d c s
  | .writeLanding d c => Sys2Proof.Machine.execWriteLanding d c s
  | .interlockedResultArrival d c n => Sys2Proof.Machine.execInterlockedResultArrival d c n s
  | .asyncTrapTake d c => Sys2Proof.Machine.execAsyncTrapTake d c s
  | .haltedCauseDelivery d c => Sys2Proof.Machine.execHaltedCauseDelivery d c s
  | .statRecordWrite d c => Sys2Proof.Machine.execStatRecordWrite d c s
  | .lookupCommandStart d c => Sys2Proof.Machine.execLookupCommandStart d c s
  | .lookupCommandRetire d c => Sys2Proof.Machine.execLookupCommandRetire d c s
  | .maclrRetire d c => Sys2Proof.Machine.execMaclrRetire d c s
  | .macwrRetire d c => Sys2Proof.Machine.execMacwrRetire d c s
  | .mbiasRetire d c => Sys2Proof.Machine.execMbiasRetire d c s
  | .mmaskStart d c => Sys2Proof.Machine.execMmaskStart d c s
  | .mmaskRetire d c => Sys2Proof.Machine.execMmaskRetire d c s
  | .copyChunk d c y => Sys2Proof.Machine.execCopyChunk d c y s
  | .copyCompletionRecord d c y => Sys2Proof.Machine.execCopyCompletionRecord d c y s
  | .ypushFinish d c y => Sys2Proof.Machine.execYpushFinish d c y s
  | .releasePerformed d c n => Sys2Proof.Machine.execReleasePerformed d c n s
  | .l1Writeback d c line evict => Sys2Proof.Machine.execL1Writeback d c line evict s
  | .l2Writeback d k line evict => Sys2Proof.Machine.execL2Writeback d k line evict s
  | .l1MissFill d c line => Sys2Proof.Machine.execL1MissFill d c line s
  | .barrierStep d c n => Sys2Proof.Machine.execBarrierStep d c n s
  | .sliceSetRequest d c n => Sys2Proof.Machine.execSliceSetRequest d c n s
  | .l2EccError d k e => Sys2Proof.Machine.execL2EccError d k e s
  | .pageWalk d c va write => Sys2Proof.Machine.execPageWalk d c va write s
  | .tlbinvAll d => Sys2Proof.Machine.execTlbinvAll d s
  | .tlbinvAsn d => Sys2Proof.Machine.execTlbinvAsn d s
  | .tlbinvRange d => Sys2Proof.Machine.execTlbinvRange d s
  | .tlbinvCwPurge d => Sys2Proof.Machine.execTlbinvCwPurge d s
  | .tlbinvComplete d => Sys2Proof.Machine.execTlbinvComplete d s
  | .pgansMapped d tag => Sys2Proof.Machine.execPgansMapped d tag s
  | .pgansDeclined d tag => Sys2Proof.Machine.execPgansDeclined d tag s
  | .preload d r => Sys2Proof.Machine.execPreload d r s
  | .pinRangeWrite d r v => Sys2Proof.Machine.execPinRangeWrite d r v s
  | .atlockSet d => Sys2Proof.Machine.execAtlockSet d s
  | .atlogClear d => Sys2Proof.Machine.execAtlogClear d s
  | .accessTableWrite d off v => Sys2Proof.Machine.execAccessTableWrite d off v s
  | .ebudgetWrite d v => Sys2Proof.Machine.execEbudgetWrite d v s
  | .registerWrite x v => Sys2Proof.Machine.execRegisterWrite x v s
  | .energyWindowBoundary d => Sys2Proof.Machine.execEnergyWindowBoundary d s
  | .energySoftLimit d => Sys2Proof.Machine.execEnergySoftLimit d s
  | .energyHardHold d => Sys2Proof.Machine.execEnergyHardHold d s
  | .schedulerPass d => Sys2Proof.Machine.execSchedulerPass d s
  | .threadCompletion d c => Sys2Proof.Machine.execThreadCompletion d c s
  | .armStep d c n => Sys2Proof.Machine.execArmStep d c n s
  | .patchStep d c n => Sys2Proof.Machine.execPatchStep d c n s
  | .nrcmdResume d idx => Sys2Proof.Machine.execNrcmdResume d idx s
  | .nrcmdEnd d idx code => Sys2Proof.Machine.execNrcmdEnd d idx code s
  | .nrcmdRemove d idx => Sys2Proof.Machine.execNrcmdRemove d idx s
  | .nrcmdPreempt d idx => Sys2Proof.Machine.execNrcmdPreempt d idx s
  | .coldReset => Sys2Proof.Machine.execColdReset s
  | .warmReset => Sys2Proof.Machine.execWarmReset s
  | .taprootStart d t v => Sys2Proof.Machine.execTaprootStart d t v s
  | .taprootInterrupt d t => Sys2Proof.Machine.execTaprootInterrupt d t s
  | .hostDoorbell k => Sys2Proof.Machine.execHostDoorbell k s
  | .outdbSend v => Sys2Proof.Machine.execOutdbSend v s
  | .inboundMsi k => Sys2Proof.Machine.execInboundMsi k s
  | .pcieInboundAccess write pa data => Sys2Proof.Machine.execPcieInboundAccess write pa data s
  | .gtrigWrite v => Sys2Proof.Machine.execGtrigWrite v s
  | .triggerShadowCopy => Sys2Proof.Machine.execTriggerShadowCopy s
  | .triggerMessage t => Sys2Proof.Machine.execTriggerMessage t s
  | .linkDown l => Sys2Proof.Machine.execLinkDown l s
  | .canopyPortDown p => Sys2Proof.Machine.execCanopyPortDown p s
  | .portTrain p peer width ptime => Sys2Proof.Machine.execPortTrain p peer width ptime s
  | .memoryUncorrectable d line => Sys2Proof.Machine.execMemoryUncorrectable d line s
  | .patrolScrub d line err => Sys2Proof.Machine.execPatrolScrub d line err s
  | .attestReport nonce => Sys2Proof.Machine.execAttestReport nonce s
  | .mrExtend k digest => Sys2Proof.Machine.execMrExtend k digest s
  | .fuseRaise f v => Sys2Proof.Machine.execFuseRaise f v s
  | .debugUnlock signed => Sys2Proof.Machine.execDebugUnlock signed s
  | .freeze d c => Sys2Proof.Machine.execFreeze d c s
  | .resume d c => Sys2Proof.Machine.execResume d c s
  | .step d c => Sys2Proof.Machine.execStep d c s
  | .stepover d c => Sys2Proof.Machine.execStepover d c s
  | .read d c => Sys2Proof.Machine.execRead d c s
  | .cancel d c => Sys2Proof.Machine.execCancel d c s
  | .reinject d c => Sys2Proof.Machine.execReinject d c s
  | .write d c => Sys2Proof.Machine.execWrite d c s
  | .thermalThrottle d => Sys2Proof.Machine.execThermalThrottle d s
  | .thermalHold d => Sys2Proof.Machine.execThermalHold d s
  | .thermalHoldRelease d => Sys2Proof.Machine.execThermalHoldRelease d s
  | .thermtrip d => Sys2Proof.Machine.execThermtrip d s
  | .fabricInboundAccess src pa x => Sys2Proof.Machine.execFabricInboundAccess src pa x s
  | .fabricWriteAck n => Sys2Proof.Machine.execFabricWriteAck n s
  | .switchMerge a b => Sys2Proof.Machine.execSwitchMerge a b s
  | .homeMerge x => Sys2Proof.Machine.execHomeMerge x s
  | .fabredWrite n upper v => Sys2Proof.Machine.execFabredWrite n upper v s
  | .routeWrite n v => Sys2Proof.Machine.execRouteWrite n v s
  | .fabcfgWrite v => Sys2Proof.Machine.execFabcfgWrite v s
  | .lkiLoad base size => Sys2Proof.Machine.execLkiLoad base size s
  | .storeQueueDrain d c n => Sys2Proof.Machine.execStoreQueueDrain d c n s
  | .cnop => Sys2Proof.Machine.execCnop s
  | .br g bt => Sys2Proof.Machine.execBr g bt s
  | .brp g bt neg ps => Sys2Proof.Machine.execBrp g bt neg ps s
  | .brlc g bt lc => Sys2Proof.Machine.execBrlc g bt lc s
  | .brl g bt bl => Sys2Proof.Machine.execBrl g bt bl s
  | .brx g a => Sys2Proof.Machine.execBrx g a s
  | .halt g => Sys2Proof.Machine.execHalt g s
  | .delay g n => Sys2Proof.Machine.execDelay g n s
  | .pbr g bd im => Sys2Proof.Machine.execPbr g bd im s
  | .pbrs g d a => Sys2Proof.Machine.execPbrs g d a s
  | .bget g d a => Sys2Proof.Machine.execBget g d a s
  | .btok g d e => Sys2Proof.Machine.execBtok g d e s
  | .lcset g d n => Sys2Proof.Machine.execLcset g d n s
  | .lcsets g d a => Sys2Proof.Machine.execLcsets g d a s
  | .lcget g d a => Sys2Proof.Machine.execLcget g d a s
  | .skset g d n => Sys2Proof.Machine.execSkset g d n s
  | .sksets g d a => Sys2Proof.Machine.execSksets g d a s
  | .skget g d a => Sys2Proof.Machine.execSkget g d a s
  | .shape g d a b => Sys2Proof.Machine.execShape g d a b s
  | .shapex g d a imm => Sys2Proof.Machine.execShapex g d a imm s
  | .shget g d a => Sys2Proof.Machine.execShget g d a s
  | .fdset g d a => Sys2Proof.Machine.execFdset g d a s
  | .fdget g d a => Sys2Proof.Machine.execFdget g d a s
  | .hinit g d a => Sys2Proof.Machine.execHinit g d a s
  | .hwait g d n => Sys2Proof.Machine.execHwait g d n s
  | .hres g d n => Sys2Proof.Machine.execHres g d n s
  | .hadv g d n => Sys2Proof.Machine.execHadv g d n s
  | .hcommit g d a => Sys2Proof.Machine.execHcommit g d a s
  | .hget g d a => Sys2Proof.Machine.execHget g d a s
  | .hstat g d a => Sys2Proof.Machine.execHstat g d a s
  | .qfence g m => Sys2Proof.Machine.execQfence g m s
  | .barinit g a n => Sys2Proof.Machine.execBarinit g a n s
  | .bararv g sc n => Sys2Proof.Machine.execBararv g sc n s
  | .barwait g sc n => Sys2Proof.Machine.execBarwait g sc n s
  | .barrem g a sc => Sys2Proof.Machine.execBarrem g a sc s
  | .gjoin g a => Sys2Proof.Machine.execGjoin g a s
  | .gleave g a => Sys2Proof.Machine.execGleave g a s
  | .lpatch g a b k => Sys2Proof.Machine.execLpatch g a b k s
  | .larm g d a => Sys2Proof.Machine.execLarm g d a s
  | .lwait g a => Sys2Proof.Machine.execLwait g a s
  | .trap g n => Sys2Proof.Machine.execTrap g n s
  | .rft g => Sys2Proof.Machine.execRft g s
  | .brk g n => Sys2Proof.Machine.execBrk g n s
  | .csrrd g d n => Sys2Proof.Machine.execCsrrd g d n s
  | .csrwr g a n => Sys2Proof.Machine.execCsrwr g a n s
  | .csrset g a n => Sys2Proof.Machine.execCsrset g a n s
  | .csrclr g a n => Sys2Proof.Machine.execCsrclr g a n s
  | .scall g n => Sys2Proof.Machine.execScall g n s
  | .sret g => Sys2Proof.Machine.execSret g s
  | .wfi g => Sys2Proof.Machine.execWfi g s
  | .tbwait g d a => Sys2Proof.Machine.execTbwait g d a s
  | .snop => Sys2Proof.Machine.execSnop s
  | .add g d a b => Sys2Proof.Machine.execAdd g d a b s
  | .sub g d a b => Sys2Proof.Machine.execSub g d a b s
  | .mul g d a b => Sys2Proof.Machine.execMul g d a b s
  | .mulh g d a b => Sys2Proof.Machine.execMulh g d a b s
  | .mulhu g d a b => Sys2Proof.Machine.execMulhu g d a b s
  | .and g d a b => Sys2Proof.Machine.execAnd g d a b s
  | .or g d a b => Sys2Proof.Machine.execOr g d a b s
  | .xor g d a b => Sys2Proof.Machine.execXor g d a b s
  | .andn g d a b => Sys2Proof.Machine.execAndn g d a b s
  | .orn g d a b => Sys2Proof.Machine.execOrn g d a b s
  | .shl g d a b => Sys2Proof.Machine.execShl g d a b s
  | .shr g d a b => Sys2Proof.Machine.execShr g d a b s
  | .sra g d a b => Sys2Proof.Machine.execSra g d a b s
  | .rol g d a b => Sys2Proof.Machine.execRol g d a b s
  | .min g d a b => Sys2Proof.Machine.execMin g d a b s
  | .max g d a b => Sys2Proof.Machine.execMax g d a b s
  | .minu g d a b => Sys2Proof.Machine.execMinu g d a b s
  | .maxu g d a b => Sys2Proof.Machine.execMaxu g d a b s
  | .slt g d a b => Sys2Proof.Machine.execSlt g d a b s
  | .sltu g d a b => Sys2Proof.Machine.execSltu g d a b s
  | .seq g d a b => Sys2Proof.Machine.execSeq g d a b s
  | .sne g d a b => Sys2Proof.Machine.execSne g d a b s
  | .clz g d a => Sys2Proof.Machine.execClz g d a s
  | .mov g d a => Sys2Proof.Machine.execMov g d a s
  | .ctz g d a => Sys2Proof.Machine.execCtz g d a s
  | .popc g d a => Sys2Proof.Machine.execPopc g d a s
  | .sext g d a w => Sys2Proof.Machine.execSext g d a w s
  | .zext g d a w => Sys2Proof.Machine.execZext g d a w s
  | .addi g d a im => Sys2Proof.Machine.execAddi g d a im s
  | .muli g d a im => Sys2Proof.Machine.execMuli g d a im s
  | .andi g d a im => Sys2Proof.Machine.execAndi g d a im s
  | .ori g d a im => Sys2Proof.Machine.execOri g d a im s
  | .xori g d a im => Sys2Proof.Machine.execXori g d a im s
  | .shli g d a im => Sys2Proof.Machine.execShli g d a im s
  | .shri g d a im => Sys2Proof.Machine.execShri g d a im s
  | .srai g d a im => Sys2Proof.Machine.execSrai g d a im s
  | .roli g d a im => Sys2Proof.Machine.execRoli g d a im s
  | .slti g d a im => Sys2Proof.Machine.execSlti g d a im s
  | .sltui g d a im => Sys2Proof.Machine.execSltui g d a im s
  | .seqi g d a im => Sys2Proof.Machine.execSeqi g d a im s
  | .mini g d a im => Sys2Proof.Machine.execMini g d a im s
  | .maxi g d a im => Sys2Proof.Machine.execMaxi g d a im s
  | .li g d imm => Sys2Proof.Machine.execLi g d imm s
  | .lih g d imm => Sys2Proof.Machine.execLih g d imm s
  | .addx g d a imm => Sys2Proof.Machine.execAddx g d a imm s
  | .andx g d a imm => Sys2Proof.Machine.execAndx g d a imm s
  | .orx g d a imm => Sys2Proof.Machine.execOrx g d a imm s
  | .xorx g d a imm => Sys2Proof.Machine.execXorx g d a imm s
  | .spset g d a => Sys2Proof.Machine.execSpset g d a s
  | .spany g d a => Sys2Proof.Machine.execSpany g d a s
  | .spall g d a => Sys2Proof.Machine.execSpall g d a s
  | .spcnt g d a => Sys2Proof.Machine.execSpcnt g d a s
  | .scyc g d => Sys2Proof.Machine.execScyc g d s
  | .svl g d => Sys2Proof.Machine.execSvl g d s
  | .bswap g d a => Sys2Proof.Machine.execBswap g d a s
  | .anop => Sys2Proof.Machine.execAnop s
  | .aadd g d a b => Sys2Proof.Machine.execAadd g d a b s
  | .asub g d a b => Sys2Proof.Machine.execAsub g d a b s
  | .aadda g d a b => Sys2Proof.Machine.execAadda g d a b s
  | .amov g d a => Sys2Proof.Machine.execAmov g d a s
  | .asets g d a => Sys2Proof.Machine.execAsets g d a s
  | .agets g d a => Sys2Proof.Machine.execAgets g d a s
  | .aaddi g d a im => Sys2Proof.Machine.execAaddi g d a im s
  | .ali g d imm => Sys2Proof.Machine.execAli g d imm s
  | .alih g d imm => Sys2Proof.Machine.execAlih g d imm s
  | .aaddx g d a imm => Sys2Proof.Machine.execAaddx g d a imm s
  | .ldspI8 g d ab pi im => Sys2Proof.Machine.execLdspI8 g d ab pi im s
  | .ldspI16 g d ab pi im => Sys2Proof.Machine.execLdspI16 g d ab pi im s
  | .ldspI32 g d ab pi im => Sys2Proof.Machine.execLdspI32 g d ab pi im s
  | .ldspI64 g d ab pi im => Sys2Proof.Machine.execLdspI64 g d ab pi im s
  | .ldspUi8 g d ab pi im => Sys2Proof.Machine.execLdspUi8 g d ab pi im s
  | .ldspUi16 g d ab pi im => Sys2Proof.Machine.execLdspUi16 g d ab pi im s
  | .ldspUi32 g d ab pi im => Sys2Proof.Machine.execLdspUi32 g d ab pi im s
  | .stspI8 g d ab pi im => Sys2Proof.Machine.execStspI8 g d ab pi im s
  | .stspI16 g d ab pi im => Sys2Proof.Machine.execStspI16 g d ab pi im s
  | .stspI32 g d ab pi im => Sys2Proof.Machine.execStspI32 g d ab pi im s
  | .stspI64 g d ab pi im => Sys2Proof.Machine.execStspI64 g d ab pi im s
  | .ldgI8 g d ab pi im => Sys2Proof.Machine.execLdgI8 g d ab pi im s
  | .ldgI16 g d ab pi im => Sys2Proof.Machine.execLdgI16 g d ab pi im s
  | .ldgI32 g d ab pi im => Sys2Proof.Machine.execLdgI32 g d ab pi im s
  | .ldgI64 g d ab pi im => Sys2Proof.Machine.execLdgI64 g d ab pi im s
  | .ldgUi8 g d ab pi im => Sys2Proof.Machine.execLdgUi8 g d ab pi im s
  | .ldgUi16 g d ab pi im => Sys2Proof.Machine.execLdgUi16 g d ab pi im s
  | .ldgUi32 g d ab pi im => Sys2Proof.Machine.execLdgUi32 g d ab pi im s
  | .stgI8 g d ab pi im => Sys2Proof.Machine.execStgI8 g d ab pi im s
  | .stgI16 g d ab pi im => Sys2Proof.Machine.execStgI16 g d ab pi im s
  | .stgI32 g d ab pi im => Sys2Proof.Machine.execStgI32 g d ab pi im s
  | .stgI64 g d ab pi im => Sys2Proof.Machine.execStgI64 g d ab pi im s
  | .ldf g d ab pi im => Sys2Proof.Machine.execLdf g d ab pi im s
  | .ldfe g d ab pi im => Sys2Proof.Machine.execLdfe g d ab pi im s
  | .ste g d ab pi im => Sys2Proof.Machine.execSte g d ab pi im s
  | .feemp g ab pi im => Sys2Proof.Machine.execFeemp g ab pi im s
  | .waita g d ab pi im => Sys2Proof.Machine.execWaita g d ab pi im s
  | .amadd g d a b w => Sys2Proof.Machine.execAmadd g d a b w s
  | .amand g d a b w => Sys2Proof.Machine.execAmand g d a b w s
  | .amor g d a b w => Sys2Proof.Machine.execAmor g d a b w s
  | .amxor g d a b w => Sys2Proof.Machine.execAmxor g d a b w s
  | .ammin g d a b w => Sys2Proof.Machine.execAmmin g d a b w s
  | .ammax g d a b w => Sys2Proof.Machine.execAmmax g d a b w s
  | .amswp g d a b w => Sys2Proof.Machine.execAmswp g d a b w s
  | .amcas g d a b w => Sys2Proof.Machine.execAmcas g d a b w s
  | .ldaqI32 g d ab sc im => Sys2Proof.Machine.execLdaqI32 g d ab sc im s
  | .ldaqI64 g d ab sc im => Sys2Proof.Machine.execLdaqI64 g d ab sc im s
  | .strlI32 g d ab sc im => Sys2Proof.Machine.execStrlI32 g d ab sc im s
  | .strlI64 g d ab sc im => Sys2Proof.Machine.execStrlI64 g d ab sc im s
  | .qmark g => Sys2Proof.Machine.execQmark g s
  | .l1fl g sc => Sys2Proof.Machine.execL1fl g sc s
  | .l1inv g sc => Sys2Proof.Machine.execL1inv g sc s
  | .l1fll g ab im => Sys2Proof.Machine.execL1fll g ab im s
  | .l1invl g ab im => Sys2Proof.Machine.execL1invl g ab im s
  | .ldpf g ab im => Sys2Proof.Machine.execLdpf g ab im s
  | .vnop u => Sys2Proof.Machine.execVnop u s
  | .vadd g u vd va vb t => Sys2Proof.Machine.execVadd g u vd va vb t s
  | .vsub g u vd va vb t => Sys2Proof.Machine.execVsub g u vd va vb t s
  | .vmul g u vd va vb t => Sys2Proof.Machine.execVmul g u vd va vb t s
  | .vmulh g u vd va vb t => Sys2Proof.Machine.execVmulh g u vd va vb t s
  | .vadds g u vd va vb t => Sys2Proof.Machine.execVadds g u vd va vb t s
  | .vsubs g u vd va vb t => Sys2Proof.Machine.execVsubs g u vd va vb t s
  | .vmin g u vd va vb t => Sys2Proof.Machine.execVmin g u vd va vb t s
  | .vmax g u vd va vb t => Sys2Proof.Machine.execVmax g u vd va vb t s
  | .vabs g u vd va t => Sys2Proof.Machine.execVabs g u vd va t s
  | .vneg g u vd va t => Sys2Proof.Machine.execVneg g u vd va t s
  | .vand g u vd va vb t => Sys2Proof.Machine.execVand g u vd va vb t s
  | .vor g u vd va vb t => Sys2Proof.Machine.execVor g u vd va vb t s
  | .vxor g u vd va vb t => Sys2Proof.Machine.execVxor g u vd va vb t s
  | .vnot g u vd va t => Sys2Proof.Machine.execVnot g u vd va t s
  | .vshl g u vd va vb t => Sys2Proof.Machine.execVshl g u vd va vb t s
  | .vshr g u vd va vb t => Sys2Proof.Machine.execVshr g u vd va vb t s
  | .vsra g u vd va vb t => Sys2Proof.Machine.execVsra g u vd va vb t s
  | .vavg g u vd va vb t => Sys2Proof.Machine.execVavg g u vd va vb t s
  | .vabsd g u vd va vb t => Sys2Proof.Machine.execVabsd g u vd va vb t s
  | .vclz g u vd va t => Sys2Proof.Machine.execVclz g u vd va t s
  | .vpopc g u vd va t => Sys2Proof.Machine.execVpopc g u vd va t s
  | .vmov g u vd va t => Sys2Proof.Machine.execVmov g u vd va t s
  | .vrsum g u vd va t => Sys2Proof.Machine.execVrsum g u vd va t s
  | .vrmax g u vd va t => Sys2Proof.Machine.execVrmax g u vd va t s
  | .vrmin g u vd va t => Sys2Proof.Machine.execVrmin g u vd va t s
  | .vperm g u vd va vb t => Sys2Proof.Machine.execVperm g u vd va vb t s
  | .vzip g u vd va vb t => Sys2Proof.Machine.execVzip g u vd va vb t s
  | .vunzip g u vd va vb t => Sys2Proof.Machine.execVunzip g u vd va vb t s
  | .vmaxexp g u va t => Sys2Proof.Machine.execVmaxexp g u va t s
  | .vseedx g u vd va t => Sys2Proof.Machine.execVseedx g u vd va t s
  | .vseedc g u vd va vb t => Sys2Proof.Machine.execVseedc g u vd va vb t s
  | .vfma g u vd va vb t vc rm => Sys2Proof.Machine.execVfma g u vd va vb t vc rm s
  | .vfms g u vd va vb t vc rm => Sys2Proof.Machine.execVfms g u vd va vb t vc rm s
  | .vfnma g u vd va vb t vc rm => Sys2Proof.Machine.execVfnma g u vd va vb t vc rm s
  | .vfnms g u vd va vb t vc rm => Sys2Proof.Machine.execVfnms g u vd va vb t vc rm s
  | .vsel g u vd va vb t ps => Sys2Proof.Machine.execVsel g u vd va vb t ps s
  | .vaddr g u vd va vb t rm => Sys2Proof.Machine.execVaddr g u vd va vb t rm s
  | .vmulr g u vd va vb t rm => Sys2Proof.Machine.execVmulr g u vd va vb t rm s
  | .vcvt g u vd va ts td sc rm part => Sys2Proof.Machine.execVcvt g u vd va ts td sc rm part s
  | .vaddi g u vd va t imm => Sys2Proof.Machine.execVaddi g u vd va t imm s
  | .vmuli g u vd va t imm => Sys2Proof.Machine.execVmuli g u vd va t imm s
  | .vandi g u vd va t imm => Sys2Proof.Machine.execVandi g u vd va t imm s
  | .vori g u vd va t imm => Sys2Proof.Machine.execVori g u vd va t imm s
  | .vshli g u vd va t imm => Sys2Proof.Machine.execVshli g u vd va t imm s
  | .vshri g u vd va t imm => Sys2Proof.Machine.execVshri g u vd va t imm s
  | .vsrai g u vd va t imm => Sys2Proof.Machine.execVsrai g u vd va t imm s
  | .vbcst g u vd t imm => Sys2Proof.Machine.execVbcst g u vd t imm s
  | .vcmpeq g u pd va vb t => Sys2Proof.Machine.execVcmpeq g u pd va vb t s
  | .vcmpne g u pd va vb t => Sys2Proof.Machine.execVcmpne g u pd va vb t s
  | .vcmplt g u pd va vb t => Sys2Proof.Machine.execVcmplt g u pd va vb t s
  | .vcmple g u pd va vb t => Sys2Proof.Machine.execVcmple g u pd va vb t s
  | .vcmpgt g u pd va vb t => Sys2Proof.Machine.execVcmpgt g u pd va vb t s
  | .vcmpge g u pd va vb t => Sys2Proof.Machine.execVcmpge g u pd va vb t s
  | .vcmpun g u pd va vb t => Sys2Proof.Machine.execVcmpun g u pd va vb t s
  | .vclass g u pd va vb t => Sys2Proof.Machine.execVclass g u pd va vb t s
  | .vpand g u pd pa pb => Sys2Proof.Machine.execVpand g u pd pa pb s
  | .vpor g u pd pa pb => Sys2Proof.Machine.execVpor g u pd pa pb s
  | .vpxor g u pd pa pb => Sys2Proof.Machine.execVpxor g u pd pa pb s
  | .vpandn g u pd pa pb => Sys2Proof.Machine.execVpandn g u pd pa pb s
  | .vexp g u vd va t => Sys2Proof.Machine.execVexp g u vd va t s
  | .vexp2 g u vd va t => Sys2Proof.Machine.execVexp2 g u vd va t s
  | .vlog g u vd va t => Sys2Proof.Machine.execVlog g u vd va t s
  | .vlog2 g u vd va t => Sys2Proof.Machine.execVlog2 g u vd va t s
  | .vrcp g u vd va t => Sys2Proof.Machine.execVrcp g u vd va t s
  | .vrsq g u vd va t => Sys2Proof.Machine.execVrsq g u vd va t s
  | .vsqrt g u vd va t => Sys2Proof.Machine.execVsqrt g u vd va t s
  | .vtanh g u vd va t => Sys2Proof.Machine.execVtanh g u vd va t s
  | .vsigm g u vd va t => Sys2Proof.Machine.execVsigm g u vd va t s
  | .vsilu g u vd va t => Sys2Proof.Machine.execVsilu g u vd va t s
  | .vgelu g u vd va t => Sys2Proof.Machine.execVgelu g u vd va t s
  | .vsin g u vd va t => Sys2Proof.Machine.execVsin g u vd va t s
  | .vcos g u vd va t => Sys2Proof.Machine.execVcos g u vd va t s
  | .verf g u vd va t => Sys2Proof.Machine.execVerf g u vd va t s
  | .vtbld g u h va vb => Sys2Proof.Machine.execVtbld g u h va vb s
  | .vtwr g u vd x k td ts rm => Sys2Proof.Machine.execVtwr g u vd x k td ts rm s
  | .vtrd g u vd x k td ts rm => Sys2Proof.Machine.execVtrd g u vd x k td ts rm s
  | .vld g u vd ab sp pi im => Sys2Proof.Machine.execVld g u vd ab sp pi im s
  | .vst g u vd ab sp pi im => Sys2Proof.Machine.execVst g u vd ab sp pi im s
  | .vldb g u vd ab sp pi im => Sys2Proof.Machine.execVldb g u vd ab sp pi im s
  | .vldnt g u vd ab sp pi im => Sys2Proof.Machine.execVldnt g u vd ab sp pi im s
  | .vstnt g u vd ab sp pi im => Sys2Proof.Machine.execVstnt g u vd ab sp pi im s
  | .vgath g u vd ab sp vi es => Sys2Proof.Machine.execVgath g u vd ab sp vi es s
  | .vscat g u vd ab sp vi es => Sys2Proof.Machine.execVscat g u vd ab sp vi es s
  | .vscata g u vd ab sp vi es => Sys2Proof.Machine.execVscata g u vd ab sp vi es s
  | .vwiden g u vd va t => Sys2Proof.Machine.execVwiden g u vd va t s
  | .vnarrow g u vd va vb t => Sys2Proof.Machine.execVnarrow g u vd va vb t s
  | .vpack g u vd va vb t => Sys2Proof.Machine.execVpack g u vd va vb t s
  | .vunpack g u vd va t => Sys2Proof.Machine.execVunpack g u vd va t s
  | .vsumw g u vd va vb t => Sys2Proof.Machine.execVsumw g u vd va vb t s
  | .vdot2 g u vd va vb t => Sys2Proof.Machine.execVdot2 g u vd va vb t s
  | .vscale g u vd va vb t => Sys2Proof.Machine.execVscale g u vd va vb t s
  | .vround g u vd va t => Sys2Proof.Machine.execVround g u vd va t s
  | .vfloor g u vd va t => Sys2Proof.Machine.execVfloor g u vd va t s
  | .vslide g u vd va vb t => Sys2Proof.Machine.execVslide g u vd va vb t s
  | .vrev g u vd va t => Sys2Proof.Machine.execVrev g u vd va t s
  | .mnop => Sys2Proof.Machine.execMnop s
  | .mcbset g sd sel => Sys2Proof.Machine.execMcbset g sd sel s
  | .mlut g ht hw row col sh clr => Sys2Proof.Machine.execMlut g ht hw row col sh clr s
  | .mlutg g ht hw row col sh clr hp hs => Sys2Proof.Machine.execMlutg g ht hw row col sh clr hp hs s
  | .mluts g ht hw row col sh clr => Sys2Proof.Machine.execMluts g ht hw row col sh clr s
  | .mlutsg g ht hw row col sh clr hp hs => Sys2Proof.Machine.execMlutsg g ht hw row col sh clr hp hs s
  | .maclr g row col sh => Sys2Proof.Machine.execMaclr g row col sh s
  | .mmask g ht => Sys2Proof.Machine.execMmask g ht s
  | .mstat g sd n => Sys2Proof.Machine.execMstat g sd n s
  | .mcbget g sd sel => Sys2Proof.Machine.execMcbget g sd sel s
  | .macrd g vd row col => Sys2Proof.Machine.execMacrd g vd row col s
  | .macwr g vd row col => Sys2Proof.Machine.execMacwr g vd row col s
  | .mbias g vd row col => Sys2Proof.Machine.execMbias g vd row col s
  | .mreset g => Sys2Proof.Machine.execMreset g s
  | .mlutk g ht hw row col sh clr => Sys2Proof.Machine.execMlutk g ht hw row col sh clr s
  | .mlutgk g ht hw row col sh clr hp hs => Sys2Proof.Machine.execMlutgk g ht hw row col sh clr hp hs s
  | .ynop u => Sys2Proof.Machine.execYnop u s
  | .ycopy g u ab pi lock sc => Sys2Proof.Machine.execYcopy g u ab pi lock sc s
  | .ypush g u ab pi lock sc => Sys2Proof.Machine.execYpush g u ab pi lock sc s
  | .yacc g u ab pi lock sc => Sys2Proof.Machine.execYacc g u ab pi lock sc s
  | .yaccp g u ab pi lock sc => Sys2Proof.Machine.execYaccp g u ab pi lock sc s
  | .ymx4 g u ab pi lock sc => Sys2Proof.Machine.execYmx4 g u ab pi lock sc s
  | .ysadd g u ab pi lock sc => Sys2Proof.Machine.execYsadd g u ab pi lock sc s
  | .yatom g u ab pi lock sc => Sys2Proof.Machine.execYatom g u ab pi lock sc s
  | .ypref g u ab pi lock sc => Sys2Proof.Machine.execYpref g u ab pi lock sc s
  | .yfill g u ab pi lock sc => Sys2Proof.Machine.execYfill g u ab pi lock sc s
  | .yrem g u ab pi lock sc => Sys2Proof.Machine.execYrem g u ab pi lock sc s
  | .ygath g u ab pi lock sc => Sys2Proof.Machine.execYgath g u ab pi lock sc s
  | .yscat g u ab pi lock sc => Sys2Proof.Machine.execYscat g u ab pi lock sc s
  | .yline g u ab pi lock sc => Sys2Proof.Machine.execYline g u ab pi lock sc s
  | .ycancel g u => Sys2Proof.Machine.execYcancel g u s
  | .yldv g u ab pi vd => Sys2Proof.Machine.execYldv g u ab pi vd s

end Sys2Proof.Machine
end

