-- ==== Sys2Proof/Machine/Background.lean ====
section
/-! DEFINITION. Which agent moves next when nothing outside says so (DESIGN CHOICE, log 1), what time and energy a step brings, and the placing of one
instruction where a core fetches (DESIGN CHOICE, log 21). -/

namespace Sys2Proof.Machine

open Sys2Proof

/-- The steps of a core's own agents that could bring it on: its pending BTOKs, its memory pipeline, its engines, its statistics, the
acknowledgements it waits for, and the end of a halted thread. -/
def State.coreRound (s : State) (d : Fin 4) (c : Fin 68) : List Instr :=
  let k := s.core d c
  let n := k.memq.length
  let entry (i : Nat) (m : MemOp) : Instr :=
    match m.kind with
    | .load _ _ _ _ _ _ => .interlockedResultArrival d c i
    | .store _ _ _ => .storeQueueDrain d c i
    | .addStore _ => .storeQueueDrain d c i
    | .flushLine _ _ => .storeQueueDrain d c i
    | .prefetch _ => .storeQueueDrain d c i
    | .mark => .storeQueueDrain d c i
    | .release _ _ _ => .releasePerformed d c i
    | .flush _ _ => .releasePerformed d c i
    | .arrive (.remSet _) _ _ _ => .sliceSetRequest d c i
    | .arrive _ _ _ _ => .barrierStep d c i
    | .larm _ _ _ => .armStep d c i
    | .lpatch _ _ _ => .patchStep d c i
  let copies (y : Bool) : List Instr :=
    if (k.eng.yq[copyIdx y]).isEmpty then [] else [.copyChunk d c y, .ypushFinish d c y, .copyCompletionRecord d c y]
  (List.range k.eng.btoks.length).map (fun i => .interlockedResultArrival d c (n + i)) ++
    k.memq.zipIdx.map (fun m => entry m.2 m.1) ++
    (if k.eng.mq.isEmpty then [] else [.lookupCommandStart d c, .lookupCommandRetire d c, .mmaskStart d c, .mmaskRetire d c,
      .maclrRetire d c, .macwrRetire d c, .mbiasRetire d c]) ++
    copies false ++ copies true ++
    (s.hub.fabWrites.filter fun w => w.die == d && w.core == c).map (fun w => .fabricWriteAck w.id) ++
    (if k.stats.isEmpty then [] else [.statRecordWrite d c]) ++
    (if k.run = .halted then [.haltedCauseDelivery d c, .threadCompletion d c] else [])

/-- Whether the core's next step is to wait: its bundle has been tried and waits, or its HALT has issued. -/
def Core.waits (k : Core) : Bool := k.waitc.isSome || k.run == .halted

/-- The first die whose scheduler has a pass to make (13_scheduling.md R355): none before step 4 of boot (14_package.md R381). -/
def State.dueDie (s : State) : Option (Fin 4) :=
  if s.hub.boot = .done then (List.finRange 4).find? fun d => s.hasDie d.val && (s.die d).passDue else none

/-- What the next step executes, and the agenda it leaves: the head of the agenda; with none, a pass that a scheduler has to make; else the
sequencer of core `cur`, behind a round of that core's other agents while it waits. -/
def State.nextMove (s : State) : Instr × List Instr :=
  match s.agenda with
  | i :: l => (i, l)
  | [] =>
    match s.dueDie with
    | some d => (.schedulerPass d, [])
    | none =>
      let issue : Instr := .bundleIssue s.cur.1 s.cur.2
      if (s.core s.cur.1 s.cur.2).waits then
        match s.coreRound s.cur.1 s.cur.2 with
        | [] => (issue, [])
        | i :: l => (i, l ++ [issue])
      else (issue, [])

/-- What the outside brings with a step, in one order: energy drawn, lines that a Heartwood slice writes back, queued writes that a bridge stop
sends on, lines corrected, code fetched ahead, time. Without a tick nothing comes and no answer is late. -/
def State.tickEnv (s : State) : State :=
  match s.env with
  | [] => if s.late then { s with late := false } else s
  | e :: l =>
    let s := e.energy.foldl (fun s x => s.onDie x.1 fun s => s.modDie x.1 fun d => d.draw x.2.1 x.2.2) s
    let s := e.heart.foldl (fun s a => s.heartBack (lineOf a)) s
    let s := e.bridge.foldl State.bridgeStep s
    let s := e.corrected.foldl State.countCorrected s
    let s := e.ahead.foldl (fun s x => s.fetchAhead x.1 x.2.1 x.2.2) s
    ({ s with env := l, late := e.late } : State).passTime e.ptime

/-- A bundle of one slot: head word, slot word, extension word. -/
def oneSlotWords (k : Fin 8) (w : Nat) (x : Option Nat) : List Nat :=
  (0b10110 * 2 ^ 27 + (if x.isSome then 2 ^ (8 + k.val) else 0) + 2 ^ k.val) :: w :: x.toList

/-- The core that an instruction runs on when it is placed alone: Taproot core 0 for SRET, WFI and TBWAIT, else engine core 0. -/
def homeCore (x : Option Slot) : Fin 68 :=
  match x with
  | some ⟨_, .c .sret⟩ => 64
  | some ⟨_, .c .wfi⟩ => 64
  | some ⟨_, .c (.tbwait _ _)⟩ => 64
  | _ => 0

/-- The words of the bundle that holds a table word alone; a word that no slot takes stands in slot 0. -/
def tableBundle (w : Nat) : List Nat :=
  match decodeTableSlot w with
  | some x => oneSlotWords x.op.slot (w % 2 ^ 32) (if x.encode.2.2.isSome then some (w / 2 ^ 32 % 2 ^ 32) else none)
  | none => oneSlotWords 0 (w % 2 ^ 32) none

/-- Writes words from an address upwards. -/
def placeWords (m : Bytes) (a : Nat) : List Nat → Bytes
  | [] => m
  | w :: l => placeWords (writeLE m a 4 w) (a + 4) l

/-- The core about to issue the bundle at address 0: a G3 thread that nothing holds, with the page of the bundle in its TLB; a Taproot core
translates nothing and is in supervisor mode. -/
def Core.placed (k : Core) : Core :=
  let e : TlbEntry := ⟨k.thr.asn, 0, 12, 0, true, true, true, true, false, false, true⟩
  { k with
    run := .running
    pc := 0
    delay := 0
    stallTaken := false
    waitc := none
    owed := none
    thr := { k.thr with gen := .g3 }
    tap := { k.tap with root := 0, sm := true }
    tlb := e :: k.tlb
    code := .empty
    dbg := { k.dbg with frozen := false, stepping := false, stepOver := none } }

/-- The device with one instruction stored where its next step fetches. -/
def State.placeWord (s : State) (w : Nat) : State :=
  let c := homeCore (decodeTableSlot w)
  let s := s.modCore 0 c Core.placed
  { s with mem := placeWords s.mem 0 (tableBundle w), cur := (0, c), agenda := [], env := [], late := false, power := true,
           dies := s.dies.map fun x => { x with passDue := false } }

end Sys2Proof.Machine
end

