-- ==== Sys2Proof/Machine/Step.lean ====
section
/-! DEFINITION. One step of the device. -/

namespace Sys2Proof.Machine

open Sys2Proof

/-- One step: the outside's tick, then one instruction: the head of the agenda, else the bundle at the pc of core `cur` (DESIGN CHOICE, log 1). -/
def step (s : State) : Host.Outcome State Fault Refusal :=
  let s := s.tickEnv
  let m := s.nextMove
  exec m.1 { s with agenda := m.2 }

/-- `s` with the instruction of a table word stored where `step` fetches next (DESIGN CHOICE, log 21). -/
def State.withFetchWord (s : State) (nbits w : Nat) : State :=
  let _ := nbits
  s.placeWord w

end Sys2Proof.Machine
end

