-- ==== Sys2Proof/Safety.lean ====
section
/-! DEFINITION. The terms that statements about the machine are made in: when an instruction issues at once, what its issue leaves, and
what holds in every state that a step can leave. -/

namespace Sys2Proof.Machine

open Sys2Proof

/-- The core whose sequencer issues an instruction given alone (DESIGN CHOICE, log 1). -/
abbrev State.here (s : State) : Core := s.core s.cur.1 s.cur.2

/-- Nothing that the boundary before the bundle brings, no cause that is due among it (09_core_traps.md R252, R254, R272; 14_package.md R372),
and no address breakpoint. -/
def State.calm (s : State) : Bool :=
  let k := s.here
  (if isTaproot s.cur.2 then (s.interrupt s.cur.1 s.cur.2).isNone
    else k.owed.isNone && (k.handler || (!k.asyncPending && k.cycleBreak.isNone && !k.csr.tctl && !k.stepOnce))) &&
  k.addrBreak.isNone

/-- No interlocked result is outstanding, and there is room for more writes on their way (01_bundles.md R33; 09_core_traps.md R260). -/
def Core.noneOwed (k : Core) : Bool :=
  k.memq.all (fun m => m.kind.dst.isNone) && k.held.isEmpty && k.eng.btoks.isEmpty && decide (k.inFlight ≤ 56)

/-- The sequencer of the core named by `cur` tries its bundle at this step, without idle cycles before it: power, a running thread, no
freeze or single step of the debug port, no hold for energy or heat (01_bundles.md R30; 09_core_traps.md R268; 12_die.md R341). -/
def State.awake (s : State) : Bool :=
  let k := s.here
  s.power && k.run == .running && !k.dbg.frozen && !k.dbg.stepping && k.dbg.stepOver.isNone && !(s.die s.cur.1).holds s.cur.2 && k.delay == 0

/-- A slot as the bundle holds it. -/
def slotReady (x : Slot) : Ready := ⟨x.op.slot.val, x.g, semOp x.op⟩

/-- The address behind a bundle that holds one slot alone (01_bundles.md R17; in G1 a bundle is 32 bytes). -/
def State.nextPc (s : State) (x : Slot) : W64 :=
  s.here.pc + BitVec.ofNat 64 (if (s.here.profile s.cur.2).gen = .g1 then 32 else 4 * (1 + slotWordCount x))

/-- What a slot sees at the issue cycle. -/
def State.envFor (s : State) (x : Slot) : Env := envOf s s.cur.1 s.cur.2 (s.nextPc x) (slotReady x)

/-- The core takes the slot word (02_encodings.md R60 to R62), in its present state too (03_numbers.md R69; 09_core_traps.md R278). -/
def State.admits (s : State) (x : Slot) : Bool :=
  (slotRefusal (s.here.profile s.cur.2) x).isNone && !(semOp x.op).illegal (s.envFor x)

/-- The slot's guard lets it take part (01_bundles.md R27 to R29). -/
def State.takes (s : State) (x : Slot) : Bool := s.here.active (slotReady x) == some true

/-- An instruction of one slot issues at once unless its own checks fault or make it wait. -/
def State.ready (s : State) (x : Slot) : Bool := s.awake && s.calm && s.here.noneOwed && s.admits x && s.takes x

/-- What a bundle starts from before its slot acts. -/
def State.blank (s : State) : Acc := accOf s s.cur.1 s.cur.2

/-- The device once the bundle of slot `x` has issued with what it gathered (01_bundles.md R30 to R38): the writes and memory entries it
queued are on their way, its pc has moved, one cycle has passed. -/
def State.issued (s : State) (x : Slot) (a : Acc) : State := State.commit a s.cur.1 s.cur.2 (s.nextPc x)

/-- Registers as the instruction at hand names them (09_core_traps.md R257; 01_bundles.md R13). -/
abbrev State.sreg (s : State) (n : Fin 32) : W64 := s.here.readS n
abbrev State.areg (s : State) (n : Fin 16) : W64 := s.here.readA n
abbrev State.preg (s : State) (n : Fin 8) : Nat := s.here.readP n

/-- The write that a slot issuing now sends on its way: it lands `lat` cycles after the issue cycle (01_bundles.md R32). -/
def State.write (s : State) (slot lat : Nat) (dst : Dst) (v : Nat) (latch : Option (Fin 8)) : Pend :=
  ⟨s.here.now + lat, slot, s.here.now, s.here.pc, dst, v, 0, latch, [], s.here.handler, none⟩

/-- The device once slot `x` has issued with writes `l` on their way and nothing else. -/
def State.issuedWrites (s : State) (x : Slot) (l : List Pend) : State := s.issued x { s.blank with pends := l }

/-- No write that is already on its way lands at the next cycle, none still to land is behind a result that a return landed before it, and no
wait is being measured (01_bundles.md R32, R34; 09_core_traps.md R261, R277). -/
def State.quiet (s : State) : Bool :=
  s.here.pend.all (fun w => decide (s.here.now + 1 < w.land)) && s.here.stay.isEmpty && s.here.waitc.isNone

/-- The core that issued: its pc has moved, one cycle has passed, `r` are its registers and `l` the writes still on their way. -/
def State.wentOn (s : State) (x : Slot) (r : Regs) (l : List Pend) : Core :=
  let k := s.here
  { k with
    regs := r
    pend := k.pend ++ l
    pc := s.nextPc x
    cyc := if k.handler then k.cyc else k.cyc + 1
    hcyc := if k.handler then k.hcyc + 1 else k.hcyc
    bseq := k.bseq + 1
    skipBp := false
    stepOnce := k.handler && k.stepOnce
    stallTaken := false }

/-- Results of the scalar class: latency, destination, value (04_control_scalar.md Table 4-7, R114 to R118). -/
def scalarResult (s : State) : ScalarOp → Option (Nat × Fin 32 × W64)
  | .add d a b => some (1, d, s.sreg a + s.sreg b)
  | .sub d a b => some (1, d, s.sreg a - s.sreg b)
  | .mul d a b => some (3, d, s.sreg a * s.sreg b)
  | .mulh d a b => some (3, d, BitVec.ofInt 64 ((s.sreg a).toInt * (s.sreg b).toInt / 18446744073709551616))
  | .mulhu d a b => some (3, d, BitVec.ofNat 64 ((s.sreg a).toNat * (s.sreg b).toNat / 18446744073709551616))
  | .and d a b => some (1, d, s.sreg a &&& s.sreg b)
  | .or d a b => some (1, d, s.sreg a ||| s.sreg b)
  | .xor d a b => some (1, d, s.sreg a ^^^ s.sreg b)
  | .andn d a b => some (1, d, s.sreg a &&& ~~~(s.sreg b))
  | .orn d a b => some (1, d, s.sreg a ||| ~~~(s.sreg b))
  | .shl d a b => some (1, d, s.sreg a <<< ((s.sreg b).toNat % 64))
  | .shr d a b => some (1, d, s.sreg a >>> ((s.sreg b).toNat % 64))
  | .sra d a b => some (1, d, (s.sreg a).sshiftRight ((s.sreg b).toNat % 64))
  | .rol d a b => some (1, d, (s.sreg a).rotateLeft ((s.sreg b).toNat % 64))
  | .min d a b => some (1, d, if (s.sreg b).toInt < (s.sreg a).toInt then s.sreg b else s.sreg a)
  | .max d a b => some (1, d, if (s.sreg a).toInt < (s.sreg b).toInt then s.sreg b else s.sreg a)
  | .minu d a b => some (1, d, if (s.sreg b).toNat < (s.sreg a).toNat then s.sreg b else s.sreg a)
  | .maxu d a b => some (1, d, if (s.sreg a).toNat < (s.sreg b).toNat then s.sreg b else s.sreg a)
  | .slt d a b => some (1, d, if (s.sreg a).toInt < (s.sreg b).toInt then 1 else 0)
  | .sltu d a b => some (1, d, if (s.sreg a).toNat < (s.sreg b).toNat then 1 else 0)
  | .seq d a b => some (1, d, if s.sreg a = s.sreg b then 1 else 0)
  | .sne d a b => some (1, d, if s.sreg a = s.sreg b then 0 else 1)
  | .clz d a => some (1, d, BitVec.ofNat 64 (clzBits 64 (s.sreg a).toNat))
  | .mov d a => some (1, d, s.sreg a)
  | .ctz d a => some (1, d, BitVec.ofNat 64 (ctzBits 64 (s.sreg a).toNat))
  | .popc d a => some (1, d, BitVec.ofNat 64 (popcBits 64 (s.sreg a).toNat))
  | .sext d a w => some (1, d, sextTo64 (widthBits w) (s.sreg a))
  | .zext d a w => some (1, d, zextTo64 (widthBits w) (s.sreg a))
  | .addi d a i => some (1, d, s.sreg a + i.signExtend 64)
  | .muli d a i => some (3, d, s.sreg a * i.signExtend 64)
  | .andi d a i => some (1, d, s.sreg a &&& i.signExtend 64)
  | .ori d a i => some (1, d, s.sreg a ||| i.signExtend 64)
  | .xori d a i => some (1, d, s.sreg a ^^^ i.signExtend 64)
  | .shli d a i => some (1, d, s.sreg a <<< i.toNat)
  | .shri d a i => some (1, d, s.sreg a >>> i.toNat)
  | .srai d a i => some (1, d, (s.sreg a).sshiftRight i.toNat)
  | .roli d a i => some (1, d, (s.sreg a).rotateLeft i.toNat)
  | .slti d a i => some (1, d, if (s.sreg a).toInt < i.toInt then 1 else 0)
  | .sltui d a i => some (1, d, if (s.sreg a).toNat < (i.signExtend 64).toNat then 1 else 0)
  | .seqi d a i => some (1, d, if s.sreg a = i.signExtend 64 then 1 else 0)
  | .mini d a i => some (1, d, if i.toInt < (s.sreg a).toInt then i.signExtend 64 else s.sreg a)
  | .maxi d a i => some (1, d, if (s.sreg a).toInt < i.toInt then i.signExtend 64 else s.sreg a)
  | .li d imm => some (1, d, imm.signExtend 64)
  | .lih d imm => some (1, d, imm ++ (s.sreg d).setWidth 32)
  | .addx d a imm => some (1, d, s.sreg a + imm.signExtend 64)
  | .andx d a imm => some (1, d, s.sreg a &&& imm.signExtend 64)
  | .orx d a imm => some (1, d, s.sreg a ||| imm.signExtend 64)
  | .xorx d a imm => some (1, d, s.sreg a ^^^ imm.signExtend 64)
  | .spany d a => some (1, d, if s.preg a % 2 ^ s.here.regs.vl = 0 then 0 else 1)
  | .spall d a => some (1, d, if s.preg a % 2 ^ s.here.regs.vl = 2 ^ s.here.regs.vl - 1 then 1 else 0)
  | .spcnt d a => some (1, d, BitVec.ofNat 64 (popcBits 256 (s.preg a % 2 ^ s.here.regs.vl)))
  | .scyc d => some (1, d, BitVec.ofNat 64 (if isTaproot s.cur.2 then s.here.now else s.here.now % 2 ^ 48))
  | .svl d => some (1, d, BitVec.ofNat 64 s.here.regs.vl)
  | .bswap d a => some (1, d, byteSwap (s.sreg a))
  | .spset _ _ => none
  | .snop => none

/-- Results of the address class that reach no memory (04_control_scalar.md R119). -/
def addressResult (s : State) : AddressOp → Option (Dst × W64)
  | .aadd d a b => some (.a d, s.areg a + s.sreg b)
  | .asub d a b => some (.a d, s.areg a - s.sreg b)
  | .aadda d a b => some (.a d, s.areg a + s.areg b)
  | .amov d a => some (.a d, s.areg a)
  | .asets d a => some (.a d, s.sreg a)
  | .agets d a => some (.s d, s.areg a)
  | .aaddi d a i => some (.a d, s.areg a + i.signExtend 64)
  | .ali d imm => some (.a d, imm.signExtend 64)
  | .alih d imm => some (.a d, imm ++ (s.areg d).setWidth 32)
  | .aaddx d a imm => some (.a d, s.areg a + imm.signExtend 64)
  | _ => none

/-- Results of the control class that neither branch nor reach a CSR (04_control_scalar.md R100 to R106; 08_core_memory.md R220, R225). -/
def controlResult (s : State) : ControlOp → Option (Dst × Nat)
  | .pbr bd i => some (.b bd, (s.here.pc + BitVec.ofInt 64 (4 * i.toInt)).toNat)
  | .pbrs d a => if (s.sreg a).toNat % 4 = 0 then some (.b d, (s.sreg a).toNat) else none
  | .bget d a => some (.s d, (s.here.regs.b[a]).toNat)
  | .lcset d n => some (.lc d, n.toNat)
  | .lcsets d a => some (.lc d, (s.sreg a).toNat % 2 ^ 32)
  | .lcget d a => some (.s d, (s.here.regs.lc[a]).toNat)
  | .skset d n => some (.sk d, if n then 1 else 0)
  | .sksets d a => some (.sk d, if s.sreg a = 0 then 0 else 1)
  | .skget d a => some (.s d, if s.here.regs.sk[a] then 1 else 0)
  | .shget d a => some (.s d, (s.here.regs.sh[a]).toNat)
  | .fdset d a => some (.f d, (s.sreg a).toNat % 2 ^ 17)
  | .fdget d a => some (.s d, (s.here.regs.f[a]).toNat)
  | .hget d a => some (.s d, 16 * (s.here.rings[a]).gen.toNat + a.val)
  | .hstat d a => some (.s d, ringStat s.here.rings[a])
  | _ => none

/-- Results of the matrix class that reach no queue (07_matrix_ops.md R197, R198, R212, Table 7-10). -/
def matrixResult (s : State) : MatrixOp → Option (Dst × Nat)
  | .mcbset a sel => if h : sel.val < 5 then some (.cb ⟨sel.val, h⟩, (s.sreg a).toNat % 2 ^ (if sel.val = 0 then 16 else 32)) else none
  | .mcbget d sel =>
    some (.s d, if sel.val = 0 then s.here.regs.cbCfg.toNat else if sel.val = 5 then s.here.regs.cbGen.toNat
      else (s.here.regs.cbVal.getD (sel.val - 1) 0).toNat)
  | .mstat d n =>
    some (.s d, if n.val = 0 then s.here.eng.mq.length else if n.val = 1 then s.here.eng.retired.toNat
      else if n.val = 2 then s.here.eng.heldFail else if n.val = 3 then s.here.eng.runTok .m
      else (s.maxima s.cur.1 s.cur.2.val).value)
  | _ => none

/-- Where a branch goes, if its condition holds (04_control_scalar.md R97 to R99, Table 4-1), and the latency-1 write that it makes; none for
an operation that is no branch, or one that faults. -/
def branchTo (s : State) (x : Slot) : ControlOp → Option (Option W64 × List (Dst × Nat))
  | .br bt => some (some s.here.regs.b[bt], [])
  | .brp bt neg ps =>
    if s.preg ps % 2 ^ s.here.regs.vl = 0 then some (if neg then some s.here.regs.b[bt] else none, [])
    else if s.preg ps % 2 ^ s.here.regs.vl = 2 ^ s.here.regs.vl - 1 then some (if neg then none else some s.here.regs.b[bt], [])
    else none
  | .brlc bt lc =>
    if s.here.regs.lc[lc] = 0 then some (none, [])
    else some (if s.here.regs.lc[lc] = 1 then none else some s.here.regs.b[bt], [(.lc lc, (s.here.regs.lc[lc]).toNat - 1)])
  | .brl bt bl => some (some s.here.regs.b[bt], [(.b bl, (s.nextPc x).toNat)])
  | .brx a => if (s.sreg a).toNat % 4 = 0 then some (some (s.sreg a), []) else none
  | _ => none

/-- An entry that a slot issuing now puts into the memory pipeline. -/
def State.entry (s : State) (slot : Nat) (m : MemKind) : MemOp := ⟨s.here.bseq, slot, s.here.pc, s.here.now, s.here.handler, m⟩

/-- No watchpoint matches an access of slot `x` to these bytes, and for the scratchpad no copy command has locked one of them and no acquire
of an earlier bundle is outstanding (09_core_traps.md R273; 08_core_memory.md R240; 11_ordering.md R311). -/
def State.clear (s : State) (x : Slot) (sp r w : Bool) (bytes : List Nat) : Bool :=
  ((s.envFor x).watch sp r w bytes).isNone &&
    (!sp || ((s.here.eng.lockOn bytes).isNone && !s.here.acquiring))

/-- Rows 1 and 2 of Table 4-10 hold for `n` bytes of the scratchpad at `ea`, and nothing watches or locks them. -/
def State.spadOk (s : State) (x : Slot) (r w : Bool) (ea : W64) (n : Nat) : Bool :=
  decide (ea.toNat + n ≤ 0x80000) && ea.toNat % n == 0 && s.clear x true r w (rangeOf ea.toNat n)

/-- EA of a GMEM operand (04_control_scalar.md R120). -/
def State.gmemEa (s : State) (ab : Fin 16) (pi : Bool) (i : BitVec 11) : W64 := if pi then s.areg ab else s.areg ab + i.signExtend 64

/-- The post-increment of a GMEM operand (04_control_scalar.md R120). -/
def State.gmemInc (s : State) (ab : Fin 16) (pi : Bool) (i : BitVec 11) : List Pend :=
  if pi then [s.write 2 1 (.a ab) (s.areg ab + i.signExtend 64).toNat (some 3)] else []

/-- LDSP forms: bytes, extension, destination and address operand (04_control_scalar.md R121). -/
def spadLoad : AddressOp → Option (Nat × LdFmt × Fin 32 × Fin 16 × Bool × BitVec 11)
  | .ldspI8 d ab pi i => some (1, .sext 8, d, ab, pi, i)
  | .ldspI16 d ab pi i => some (2, .sext 16, d, ab, pi, i)
  | .ldspI32 d ab pi i => some (4, .sext 32, d, ab, pi, i)
  | .ldspI64 d ab pi i => some (8, .sext 64, d, ab, pi, i)
  | .ldspUi8 d ab pi i => some (1, .zext, d, ab, pi, i)
  | .ldspUi16 d ab pi i => some (2, .zext, d, ab, pi, i)
  | .ldspUi32 d ab pi i => some (4, .zext, d, ab, pi, i)
  | _ => none

/-- STSP forms (04_control_scalar.md R121). -/
def spadStore : AddressOp → Option (Nat × Fin 32 × Fin 16 × Bool × BitVec 11)
  | .stspI8 d ab pi i => some (1, d, ab, pi, i)
  | .stspI16 d ab pi i => some (2, d, ab, pi, i)
  | .stspI32 d ab pi i => some (4, d, ab, pi, i)
  | .stspI64 d ab pi i => some (8, d, ab, pi, i)
  | _ => none

/-- LDG forms (04_control_scalar.md R122). -/
def globalLoad : AddressOp → Option (Nat × LdFmt × Fin 32 × Fin 16 × Bool × BitVec 11)
  | .ldgI8 d ab pi i => some (1, .sext 8, d, ab, pi, i)
  | .ldgI16 d ab pi i => some (2, .sext 16, d, ab, pi, i)
  | .ldgI32 d ab pi i => some (4, .sext 32, d, ab, pi, i)
  | .ldgI64 d ab pi i => some (8, .sext 64, d, ab, pi, i)
  | .ldgUi8 d ab pi i => some (1, .zext, d, ab, pi, i)
  | .ldgUi16 d ab pi i => some (2, .zext, d, ab, pi, i)
  | .ldgUi32 d ab pi i => some (4, .zext, d, ab, pi, i)
  | _ => none

/-- STG forms (04_control_scalar.md R122). -/
def globalStore : AddressOp → Option (Nat × Fin 32 × Fin 16 × Bool × BitVec 11)
  | .stgI8 d ab pi i => some (1, d, ab, pi, i)
  | .stgI16 d ab pi i => some (2, d, ab, pi, i)
  | .stgI32 d ab pi i => some (4, d, ab, pi, i)
  | .stgI64 d ab pi i => some (8, d, ab, pi, i)
  | _ => none

/-- LDAQ and STRL forms: an acquiring load or a releasing store (04_control_scalar.md R128, R129). -/
def orderedForm : AddressOp → Option (Bool × Nat × Fin 32 × Fin 16 × Scope × BitVec 9)
  | .ldaqI32 d ab sc i => some (false, 4, d, ab, sc, i)
  | .ldaqI64 d ab sc i => some (false, 8, d, ab, sc, i)
  | .strlI32 d ab sc i => some (true, 4, d, ab, sc, i)
  | .strlI64 d ab sc i => some (true, 8, d, ab, sc, i)
  | _ => none

/-- AMADD to AMCAS: operation, destination, address register, operand, bytes (04_control_scalar.md R127). -/
def atomicForm : AddressOp → Option (Amo × Fin 32 × Fin 16 × Fin 32 × Nat)
  | .amadd d a b w => some (.add, d, a, b, if w then 8 else 4)
  | .amand d a b w => some (.and, d, a, b, if w then 8 else 4)
  | .amor d a b w => some (.or, d, a, b, if w then 8 else 4)
  | .amxor d a b w => some (.xor, d, a, b, if w then 8 else 4)
  | .ammin d a b w => some (.min, d, a, b, if w then 8 else 4)
  | .ammax d a b w => some (.max, d, a, b, if w then 8 else 4)
  | .amswp d a b w => some (.swp, d, a, b, if w then 8 else 4)
  | .amcas d a b w => some (.cas, d, a, b, if w then 8 else 4)
  | _ => none

/-- A global access of `n` bytes passes Table 4-10 without a walk that changes anything; `xl` is its translation, and nothing watches it. -/
def State.globalOk (s : State) (x : Slot) (kind : AccKind) (ea : W64) (n : Nat) (needs : Bool) (xl : Xlate) (p : Place) : Prop :=
  s.alignedCheck (s.who s.cur.1 s.cur.2) kind ea n needs = (.ok (xl, p), s) ∧
    s.clear x false (!kind.isWrite) kind.isWrite (rangeOf ea.toNat n) = true

/-- A CSR access of this core that raises no PRIV (09_core_traps.md R278; 14_package.md R372). -/
def State.csrAllowed (s : State) (n : Nat) (write : Bool) : Bool :=
  if isTaproot s.cur.2 then s.here.tap.sm || n == 0x408 || n == 0x40A || n == 0x40B
  else decide (n < 0x400) && (n != 0x013 || !write || s.here.handler)

/-- A CSR as CSRRD reads it (09_core_traps.md Table 9-11; 14_package.md Table 14-4). -/
def csrRead (s : State) (n : Nat) : W64 :=
  let k := s.here
  let c := k.csr
  let t := k.tap
  let bit (p : Bool) (i : Nat) : Nat := if p then 2 ^ i else 0
  let fields (l : List Nat) : W64 := BitVec.ofNat 64 (l.foldl (· + ·) 0)
  match n with
  | 0x000 => fields [k.thr.idx, 2 ^ 12 * s.cur.2.val, 2 ^ 18 * s.cur.1.val]
  | 0x001 => fields [bit k.handler 0, bit k.skipBp 1, bit k.asyncPending 2]
  | 0x002 => fields [bit c.tctl 0]
  | 0x010 => c.tvec
  | 0x011 => c.tframe.setWidth 64
  | 0x012 => c.tdeleg.setWidth 64
  | 0x013 => c.tepc
  | 0x020 => k.regs.rng[0]
  | 0x021 => k.regs.rng[1]
  | 0x022 => k.regs.rng[2]
  | 0x023 => k.regs.rng[3]
  | 0x024 => fields [(k.regs.sl[0]).toNat, 2 ^ 8 * (k.regs.sl[1]).toNat]
  | 0x030 => fields [bit c.statEn 0]
  | 0x031 => c.waitMin.setWidth 64
  | 0x032 => c.statBase
  | 0x033 => c.statSize.setWidth 64
  | 0x034 => c.statHead.setWidth 64
  | 0x035 => c.statTail.setWidth 64
  | 0x036 => c.statLost.setWidth 64
  | 0x040 => c.bpVal[0]
  | 0x041 => c.bpVal[1]
  | 0x042 => c.bpVal[2]
  | 0x043 => c.bpVal[3]
  | 0x044 => (c.bpCtl[0]).setWidth 64
  | 0x045 => (c.bpCtl[1]).setWidth 64
  | 0x046 => (c.bpCtl[2]).setWidth 64
  | 0x047 => (c.bpCtl[3]).setWidth 64
  | 0x048 => c.wpAddr[0]
  | 0x049 => c.wpAddr[1]
  | 0x04A => c.wpAddr[2]
  | 0x04B => c.wpAddr[3]
  | 0x04C => (c.wpCtl[0]).setWidth 64
  | 0x04D => (c.wpCtl[1]).setWidth 64
  | 0x04E => (c.wpCtl[2]).setWidth 64
  | 0x04F => (c.wpCtl[3]).setWidth 64
  | 0x050 => BitVec.ofNat 64 k.bufferCount
  | 0x400 => fields [bit t.sm 0, bit t.psm 1, bit t.ie 2, bit t.pie 3]
  | 0x401 => t.vec
  | 0x402 => t.epc
  | 0x403 => t.cause
  | 0x404 => t.bad
  | 0x405 => t.root
  | 0x406 => t.irqEn
  | 0x407 => BitVec.ofNat 64 (s.trip s.cur.1 s.cur.2)
  | 0x408 => s.hub.ptime
  | 0x409 => t.tcmp
  | 0x40A => BitVec.ofNat 64 k.cyc
  | 0x40B => fields [s.cur.2.val % 4, 2 ^ 2 * s.cur.1.val]
  | _ => 0

/-- The core once a CSR write of `v` has landed: a field takes its bits of `v`, reserved bits stay zero, a number that is read-only keeps its
value, and the writes that R275 names clear STATCTL.EN (00_scope.md R7; 09_core_traps.md R275, Table 9-11; 14_package.md Table 14-4). A write
of the statistics buffer's registers lets its writer try again. -/
def csrLanded (k : Core) (n : Nat) (v : W64) : Core :=
  let c := k.csr
  let r := k.regs
  let low (w : Nat) : BitVec w := v.setWidth w
  match n with
  | 0x002 => { k with csr := { c with tctl := v.getLsbD 0 } }
  | 0x010 => { k with csr := { c with tvec := v } }
  | 0x011 => { k with csr := { c with tframe := BitVec.ofNat 19 (v.toNat % 2 ^ 19 / 64 * 64) } }
  | 0x012 => { k with csr := { c with tdeleg := low 32 ||| 0x00888000 } }
  | 0x013 => { k with csr := { c with tepc := v } }
  | 0x020 => { k with regs := { r with rng := r.rng.set 0 v } }
  | 0x021 => { k with regs := { r with rng := r.rng.set 1 v } }
  | 0x022 => { k with regs := { r with rng := r.rng.set 2 v } }
  | 0x023 => { k with regs := { r with rng := r.rng.set 3 v } }
  | 0x024 => { k with regs := { r with sl := (r.sl.set 0 (low 8)).set 1 ((v >>> 8).setWidth 8) } }
  | 0x030 => { k with csr := { c with statEn := v.getLsbD 0 && statSizeOk c.statSize }, statStuck := false }
  | 0x031 => { k with csr := { c with waitMin := low 32 } }
  | 0x032 => { k with csr := { c with statBase := v, statEn := c.statEn && (v == 0 || v.toNat % 32 == 0) }, statStuck := false }
  | 0x033 => { k with csr := { c with statSize := low 32, statEn := c.statEn && statSizeOk (low 32) } }
  | 0x034 => { k with csr := { c with statHead := low 32 }, statStuck := false }
  | 0x040 => { k with csr := { c with bpVal := c.bpVal.set 0 v } }
  | 0x041 => { k with csr := { c with bpVal := c.bpVal.set 1 v } }
  | 0x042 => { k with csr := { c with bpVal := c.bpVal.set 2 v } }
  | 0x043 => { k with csr := { c with bpVal := c.bpVal.set 3 v } }
  | 0x044 => { k with csr := { c with bpCtl := c.bpCtl.set 0 (low 32 &&& 0x7) } }
  | 0x045 => { k with csr := { c with bpCtl := c.bpCtl.set 1 (low 32 &&& 0x7) } }
  | 0x046 => { k with csr := { c with bpCtl := c.bpCtl.set 2 (low 32 &&& 0x7) } }
  | 0x047 => { k with csr := { c with bpCtl := c.bpCtl.set 3 (low 32 &&& 0x7) } }
  | 0x048 => { k with csr := { c with wpAddr := c.wpAddr.set 0 v } }
  | 0x049 => { k with csr := { c with wpAddr := c.wpAddr.set 1 v } }
  | 0x04A => { k with csr := { c with wpAddr := c.wpAddr.set 2 v } }
  | 0x04B => { k with csr := { c with wpAddr := c.wpAddr.set 3 v } }
  | 0x04C => { k with csr := { c with wpCtl := c.wpCtl.set 0 (low 32 &&& 0x3F1F) } }
  | 0x04D => { k with csr := { c with wpCtl := c.wpCtl.set 1 (low 32 &&& 0x3F1F) } }
  | 0x04E => { k with csr := { c with wpCtl := c.wpCtl.set 2 (low 32 &&& 0x3F1F) } }
  | 0x04F => { k with csr := { c with wpCtl := c.wpCtl.set 3 (low 32 &&& 0x3F1F) } }
  | 0x400 => { k with tap := { k.tap with psm := v.getLsbD 1, ie := v.getLsbD 2, pie := v.getLsbD 3 } }
  | 0x401 => { k with tap := { k.tap with vec := v } }
  | 0x402 => { k with tap := { k.tap with epc := v } }
  | 0x403 => { k with tap := { k.tap with cause := v &&& 0x80000000000000FF } }
  | 0x404 => { k with tap := { k.tap with bad := v } }
  | 0x405 => { k with tap := { k.tap with root := v &&& 0x80003FFFFFFFFFFF } }
  | 0x406 => { k with tap := { k.tap with irqEn := v &&& 0xFF } }
  | 0x409 => { k with tap := { k.tap with tcmp := v } }
  | _ => k

/-- The core once the write `w` alone has landed: what its destination takes, of v and tile rows the enabled byte lanes and of p the enabled
bits, nothing for p0, and the latch beside it (01_bundles.md Table 1-2, R15, R16, R32; 04_control_scalar.md R110, R118; 05_vector.md R136,
R162; 06_lut_engine.md R169 to R171). None for a row of VTBLD. -/
def landed (k : Core) (w : Pend) : Option Core :=
  let r := k.regs
  let latch (r : Regs) (v : Nat) : Core := { k with regs := match w.latch with
    | some l => { r with bp := r.bp.set l (BitVec.ofNat 2048 v) }
    | none => r }
  let plain (r : Regs) : Option Core := some (latch r w.val)
  match w.dst with
  | .s n => plain (writeS r w.handler n (BitVec.ofNat 64 w.val))
  | .a n => plain (writeA r w.handler n (BitVec.ofNat 64 w.val))
  | .b n => plain { r with b := r.b.set n (BitVec.ofNat 64 w.val) }
  | .lc n => plain { r with lc := r.lc.set n (BitVec.ofNat 32 w.val) }
  | .sk n => plain { r with sk := r.sk.set n (w.val % 2 == 1) }
  | .f n => plain { r with f := r.f.set n (BitVec.ofNat 17 w.val) }
  | .sh n => plain { r with
      sh := r.sh.set n (BitVec.ofNat 64 w.val)
      vl := if shKind w.val = 0 ∧ 1 ≤ shVL w.val ∧ shVL w.val ≤ 256 then shVL w.val else r.vl }
  | .sl u => plain { r with sl := if u then r.sl.set 1 (BitVec.ofNat 8 w.val) else r.sl.set 0 (BitVec.ofNat 8 w.val) }
  | .cb i => plain { (if i = 0 then { r with cbCfg := BitVec.ofNat 16 w.val }
      else { r with cbVal := r.cbVal.setIfInBounds (i.val - 1) (BitVec.ofNat 32 w.val) }) with cbGen := r.cbGen + 1 }
  | .v n =>
    let v := mergeReg (r.v[n]).toNat w.val w.en
    let k := latch { r with v := r.v.set n (BitVec.ofNat 2048 v) } v
    some (if w.vt.isSome then { k with regs := { k.regs with bp := k.regs.bp.set 7 (BitVec.ofNat 2048 v) } } else k)
  | .tile x n =>
    let v := mergeLanes 8 256 ((r.x[x])[n]).toNat w.val w.en
    some (latch { r with x := r.x.set x ((r.x[x]).set n (BitVec.ofNat 2048 v)) } v)
  | .p n =>
    let v := mergeLanes 1 256 (r.p[n]).toNat w.val w.en
    some (latch (if n = 0 then r else { r with p := r.p.set n (BitVec.ofNat 256 v) }) v)
  | .csr n => if w.latch.isNone then some (csrLanded k n (BitVec.ofNat 64 w.val)) else none
  | .vtbld _ => none

/-- What a later read of a CSR gives once `v` has been written to it: the writable fields of `v`, TDELEG's fixed bits, TFRAME's bits [18:6],
the old value where the number is read-only (00_scope.md R7; 09_core_traps.md Table 9-11; 14_package.md Table 14-4). -/
def csrKept (s : State) (n : Nat) (v : W64) : W64 :=
  let bit (i : Nat) : Nat := if v.getLsbD i then 2 ^ i else 0
  match n with
  | 0x002 => BitVec.ofNat 64 (bit 0)
  | 0x011 => BitVec.ofNat 64 (v.toNat % 2 ^ 19 / 64 * 64)
  | 0x012 => BitVec.ofNat 64 (v.toNat % 2 ^ 32) ||| 0x00888000
  | 0x024 => BitVec.ofNat 64 (v.toNat % 2 ^ 16)
  | 0x030 => BitVec.ofNat 64 (if statSizeOk s.here.csr.statSize then bit 0 else 0)
  | 0x031 => BitVec.ofNat 64 (v.toNat % 2 ^ 32)
  | 0x033 => BitVec.ofNat 64 (v.toNat % 2 ^ 32)
  | 0x034 => BitVec.ofNat 64 (v.toNat % 2 ^ 32)
  | 0x044 => v &&& 0x7
  | 0x045 => v &&& 0x7
  | 0x046 => v &&& 0x7
  | 0x047 => v &&& 0x7
  | 0x04C => v &&& 0x3F1F
  | 0x04D => v &&& 0x3F1F
  | 0x04E => v &&& 0x3F1F
  | 0x04F => v &&& 0x3F1F
  | 0x400 => BitVec.ofNat 64 ((if s.here.tap.sm then 1 else 0) + bit 1 + bit 2 + bit 3)
  | 0x403 => v &&& 0x80000000000000FF
  | 0x405 => v &&& 0x80003FFFFFFFFFFF
  | 0x406 => v &&& 0xFF
  | 0x000 => csrRead s n
  | 0x035 => csrRead s n
  | 0x036 => csrRead s n
  | 0x050 => csrRead s n
  | 0x408 => csrRead s n
  | 0x40B => csrRead s n
  | _ => v

/-- What a vector slot writes element by element: latency, element width in bits, destination, rounding mode, and element `i` under its
rounding (05_vector.md Tables 5-1 to 5-5). -/
structure ElemRule where
  lat : Nat
  w : Nat
  vd : Fin 32
  rm : Rm
  f : Rnd → Nat → Nat × Option Ev

/-- One- and two-source rules at the operation's own type and latency (05_vector.md R136, R138 to R140). -/
def Env.two (e : Env) (vd : Fin 32) (va vb : Fin 40) (t : Ty) (rm : Rm) (o : VAlu) : Option ElemRule :=
  (e.k.ty t).map fun x => ⟨x.latency, x.bits, vd, rm, fun m i => o.elem x m (elemAt (e.src va x.bits) x.bits i) (elemAt (e.src vb x.bits) x.bits i)⟩

def Env.one (e : Env) (vd : Fin 32) (va : Fin 40) (t : Ty) (o : VAlu) : Option ElemRule :=
  (e.k.ty t).map fun x => ⟨x.latency, x.bits, vd, .rne, fun m i => o.elem x m (elemAt (e.src va x.bits) x.bits i) 0⟩

def Env.imm (e : Env) (vd : Fin 32) (va : Fin 40) (t : Ty) (imm : BitVec 32) (o : VAlu) : Option ElemRule :=
  (e.k.ty t).map fun x => ⟨x.latency, x.bits, vd, .rne, fun m i =>
    o.elem x m (elemAt (e.src va x.bits) x.bits i) (imm.toNat % 2 ^ (if x.isNibble then x.codeBits else x.bits))⟩

/-- ±a × b ± c rounded once (05_vector.md R139; 03_numbers.md R88). -/
def Env.fma (e : Env) (vd : Fin 32) (va vb : Fin 40) (t : Ty) (vc : Fin 40) (rm : Rm) (negProd negC : Bool) : Option ElemRule :=
  match e.k.ty t with
  | some (.flt f n) =>
    let w := (ETy.flt f n).bits
    some ⟨4, w, vd, rm, fun m i =>
      fmaElem f m negProd negC (elemAt (e.src va w) w i) (elemAt (e.src vb w) w i) (elemAt (e.src vc w) w i)⟩
  | _ => none

/-- Moves without rounding: a code moves bit for bit, the bits of its element beside it become zero (05_vector.md R137, R144; 03_numbers.md
R71). -/
def Env.move (e : Env) (vd : Fin 32) (t : Ty) (f : Nat → Nat → Nat) : Option ElemRule :=
  (e.k.ty t).map fun x => ⟨2, x.bits, vd, .rne, fun _ i => (f x.bits i % 2 ^ x.codeBits, none)⟩

/-- Functions of one floating-point source (05_vector.md R148). -/
def Env.flt (e : Env) (vd : Fin 32) (va : Fin 40) (t : Ty) (f : Fmt → Nat → Nat → Nat × Option Ev) : Option ElemRule :=
  match e.k.ty t with
  | some (.flt m n) => let w := (ETy.flt m n).bits; some ⟨4, w, vd, .rne, fun _ i => f m i (elemAt (e.src va w) w i)⟩
  | _ => none

/-- Special functions, rounded once to BF16 (05_vector.md R149). -/
def Env.special (e : Env) (vd : Fin 32) (va : Fin 40) (t : Ty) (fn : SpecialFn) : Option ElemRule :=
  (e.k.ty t).map fun x => ⟨6, x.bits, vd, .rne, fun m i => Fmt.bf16.round m (fn.eval (Fmt.bf16.decode (elemAt (e.src va x.bits) x.bits i)))⟩

/-- The element rules of the vector class (05_vector.md Tables 5-1 to 5-5, R144 to R149, R159). -/
def vectorRule (e : Env) : VectorOp → Option ElemRule
  | .vadd vd va vb t => e.two vd va vb t .rne .add
  | .vsub vd va vb t => e.two vd va vb t .rne .sub
  | .vmul vd va vb t => e.two vd va vb t .rne .mul
  | .vmulh vd va vb t => e.two vd va vb t .rne .mulh
  | .vadds vd va vb t => e.two vd va vb t .rne .adds
  | .vsubs vd va vb t => e.two vd va vb t .rne .subs
  | .vmin vd va vb t => e.two vd va vb t .rne .min
  | .vmax vd va vb t => e.two vd va vb t .rne .max
  | .vand vd va vb t => e.two vd va vb t .rne .and
  | .vor vd va vb t => e.two vd va vb t .rne .or
  | .vxor vd va vb t => e.two vd va vb t .rne .xor
  | .vshl vd va vb t => e.two vd va vb t .rne .shl
  | .vshr vd va vb t => e.two vd va vb t .rne .shr
  | .vsra vd va vb t => e.two vd va vb t .rne .sra
  | .vavg vd va vb t => e.two vd va vb t .rne .avg
  | .vabsd vd va vb t => e.two vd va vb t .rne .absd
  | .vaddr vd va vb t rm => e.two vd va vb t rm .add
  | .vmulr vd va vb t rm => e.two vd va vb t rm .mul
  | .vabs vd va t => e.one vd va t .abs
  | .vneg vd va t => e.one vd va t .neg
  | .vnot vd va t => e.one vd va t .not
  | .vclz vd va t => e.one vd va t .clz
  | .vpopc vd va t => e.one vd va t .popc
  | .vaddi vd va t imm => e.imm vd va t imm .add
  | .vmuli vd va t imm => e.imm vd va t imm .mul
  | .vandi vd va t imm => e.imm vd va t imm .and
  | .vori vd va t imm => e.imm vd va t imm .or
  | .vshli vd va t imm => e.imm vd va t imm .shl
  | .vshri vd va t imm => e.imm vd va t imm .shr
  | .vsrai vd va t imm => e.imm vd va t imm .sra
  | .vfma vd va vb t vc rm => e.fma vd va vb t vc rm false false
  | .vfms vd va vb t vc rm => e.fma vd va vb t vc rm false true
  | .vfnma vd va vb t vc rm => e.fma vd va vb t vc rm true true
  | .vfnms vd va vb t vc rm => e.fma vd va vb t vc rm true false
  | .vsel vd va vb t ps => e.move vd t fun w i =>
      if (e.k.readP ps).testBit (w * i / 8) then elemAt (e.src va w) w i else elemAt (e.src vb w) w i
  | .vmov vd va t => e.move vd t fun w i => elemAt (e.src va w) w i
  | .vperm vd va vb t => e.move vd t fun w i => VMove.perm.elem w e.vl (e.src va w) (e.src vb w) i
  | .vzip vd va vb t => e.move vd t fun w i => VMove.zip.elem w e.vl (e.src va w) (e.src vb w) i
  | .vunzip vd va vb t => e.move vd t fun w i => VMove.unzip.elem w e.vl (e.src va w) (e.src vb w) i
  | .vslide vd va vb t => e.move vd t fun w i => VMove.slide.elem w e.vl (e.src va w) (e.src vb w) i
  | .vrev vd va t => e.move vd t fun w i => VMove.rev.elem w e.vl (e.src va w) 0 i
  | .vbcst vd t imm => (e.k.ty t).map fun x =>
      ⟨2, x.bits, vd, .rne, fun _ _ => (imm.toNat % 2 ^ x.codeBits, none)⟩
  | .vexp vd va t => e.special vd va t .exp
  | .vexp2 vd va t => e.special vd va t .exp2
  | .vlog vd va t => e.special vd va t .log
  | .vlog2 vd va t => e.special vd va t .log2
  | .vrcp vd va t => e.special vd va t .rcp
  | .vrsq vd va t => e.special vd va t .rsq
  | .vsqrt vd va t => e.special vd va t .sqrt
  | .vtanh vd va t => e.special vd va t .tanh
  | .vsigm vd va t => e.special vd va t .sigm
  | .vsilu vd va t => e.special vd va t .silu
  | .vgelu vd va t => e.special vd va t .gelu
  | .vsin vd va t => e.special vd va t .sin
  | .vcos vd va t => e.special vd va t .cos
  | .verf vd va t => e.special vd va t .erf
  | .vscale vd va vb t =>
    match e.k.ty t with
    | some (.flt m n) =>
      let w := (ETy.flt m n).bits
      some ⟨4, w, vd, .rne, fun _ i => vscaleElem m w (elemAt (e.src va w) w i) (elemAt (e.src vb w) w i)⟩
    | _ => none
  | .vround vd va t => e.flt vd va t fun m _ => integralElem false m
  | .vfloor vd va t => e.flt vd va t fun m _ => integralElem true m
  | .vwiden vd va t => (e.k.ty t).map fun x => ⟨x.latency, 2 * x.bits, vd, .rne, fun _ i => widenElem x (elemAt (e.src va x.bits) x.bits i)⟩
  | .vunpack vd va t => (e.k.ty t).map fun x =>
      ⟨x.latency, 2 * x.bits, vd, .rne, fun _ i => widenElem x (elemAt (e.src va x.bits) x.bits (2048 / (2 * x.bits) + i))⟩
  | .vnarrow vd va vb t => (e.k.ty t).map fun x =>
      let n := 2048 / x.bits
      ⟨x.latency, x.bits, vd, .rne, fun _ i => narrowElem x
        (if i < n / 2 then elemAt (e.src va (2 * x.bits)) (2 * x.bits) i else elemAt (e.src vb (2 * x.bits)) (2 * x.bits) (i - n / 2))⟩
  | .vpack vd va vb t => (e.k.ty t).map fun x =>
      let n := 2048 / x.bits
      ⟨x.latency, x.bits, vd, .rne, fun _ i =>
        ((if i < n / 2 then elemAt (e.src va (2 * x.bits)) (2 * x.bits) i else elemAt (e.src vb (2 * x.bits)) (2 * x.bits) (i - n / 2)) % 2 ^ x.bits,
          none)⟩
  | .vsumw vd va vb t =>
    match e.k.ty t with
    | some (.int sg n) =>
      let w := 8 * n
      some ⟨2, 2 * w, vd, .rne, fun _ i =>
        (wrapInt (2 * w) (asInt sg w (elemAt (e.src va w) w (2 * i)) + asInt sg w (elemAt (e.src va w) w (2 * i + 1)) +
          asInt sg (2 * w) (elemAt (e.src vb (2 * w)) (2 * w) i)), none)⟩
    | _ => none
  | .vdot2 vd va vb t => (e.k.ty t).map fun x =>
      let w := x.bits
      ⟨x.latency, 2 * w, vd, .rne, fun _ i => dot2Elem x (elemAt (e.src va w) w (2 * i)) (elemAt (e.src vb w) w (2 * i))
        (elemAt (e.src va w) w (2 * i + 1)) (elemAt (e.src vb w) w (2 * i + 1))⟩
  | .vseedx vd va t => (e.k.ty t).map fun x =>
      let c := seedFields (e.k.readV va x.bits)
      ⟨2, x.bits, vd, .rne, fun _ i => (signCode x ((seedValues (elemsBelow e.vl x.bits) c.2.1 c.2.2 c.1).getD i 0), none)⟩
  | _ => none

/-- The write of a vector slot: byte lanes `en` of a v register, with the events of its elements (05_vector.md R134, R136). -/
def State.vwrite (s : State) (u : Bool) (lat : Nat) (vd : Fin 32) (r : VRes) (en : Nat) : Pend :=
  { s.write (if u then 4 else 3) lat (.v vd) r.v (some (if u then 1 else 0)) with en := en, evs := r.evs }

/-- The random states after a slot of vector engine `u` that rounds under `rm` (03_numbers.md R78). -/
def State.rngAfter (s : State) (u : Bool) (rm : Rm) : Vector W64 4 :=
  let i := if u then 1 else 0
  if rm = .rs then s.here.regs.rng.setIfInBounds i (advanceRng (s.here.regs.rng.getD i 0)) else s.here.regs.rng

/-- A predicate that a compare writes: lane `l` of an element that takes part is `f` of the element, other lanes stay (05_vector.md R141). -/
def State.predWrite (s : State) (x : Slot) (pd : Fin 8) (w : Nat) (f : Nat → Bool) : Pend :=
  let on := fun l => (s.envFor x).on w (8 * l / w) && decide (l < s.here.regs.vl)
  { s.write x.op.slot.val 2 (.p pd) (packBits ((List.range 256).map fun l => on l && f (8 * l / w))) none with
    en := packBits ((List.range 256).map on) }

/-- Compares and class tests: predicate, element width, test of element `i` (05_vector.md R141 to R143). -/
def predicateRule (e : Env) : VectorOp → Option (Fin 8 × Nat × (Nat → Bool))
  | .vcmpeq pd va vb t => cmp .eq pd va vb t
  | .vcmpne pd va vb t => cmp .ne pd va vb t
  | .vcmplt pd va vb t => cmp .lt pd va vb t
  | .vcmple pd va vb t => cmp .le pd va vb t
  | .vcmpgt pd va vb t => cmp .gt pd va vb t
  | .vcmpge pd va vb t => cmp .ge pd va vb t
  | .vcmpun pd va vb t => cmp .un pd va vb t
  | .vclass pd va vb t =>
    match e.k.ty t with
    | some (.flt f n) =>
      let w := (ETy.flt f n).bits
      some (pd, w, fun i => (e.src vb 16 % 2 ^ 16).testBit (f.classOf (elemAt (e.src va w) w i % 2 ^ f.width)))
    | _ => none
  | .vpand pd pa pb => some (pd, 8, fun i => (e.k.readP pa).testBit i && (e.k.readP pb).testBit i)
  | .vpor pd pa pb => some (pd, 8, fun i => (e.k.readP pa).testBit i || (e.k.readP pb).testBit i)
  | .vpxor pd pa pb => some (pd, 8, fun i => (e.k.readP pa).testBit i != (e.k.readP pb).testBit i)
  | .vpandn pd pa pb => some (pd, 8, fun i => (e.k.readP pa).testBit i && !(e.k.readP pb).testBit i)
  | _ => none
where
  cmp (r : Rel) (pd : Fin 8) (va vb : Fin 40) (t : Ty) : Option (Fin 8 × Nat × (Nat → Bool)) :=
    (e.k.ty t).map fun x => (pd, x.bits, fun i => r.elem x (elemAt (e.src va x.bits) x.bits i) (elemAt (e.src vb x.bits) x.bits i))

/-- Vector loads and stores: register, base, scratchpad, PI, displacement in words (05_vector.md R164). -/
def vectorMem : VectorOp → Option (Fin 32 × Fin 16 × Bool × Bool × BitVec 10)
  | .vld vd ab sp pi i => some (vd, ab, sp, pi, i)
  | .vldnt vd ab sp pi i => some (vd, ab, sp, pi, i)
  | .vldb vd ab sp pi i => some (vd, ab, sp, pi, i)
  | .vst vd ab sp pi i => some (vd, ab, sp, pi, i)
  | .vstnt vd ab sp pi i => some (vd, ab, sp, pi, i)
  | _ => none

/-- The lanes of a VMEM form that it accesses: every enabled lane, or the four bytes that VLDB broadcasts (05_vector.md R164, R165). -/
def vectorLanes (e : Env) : VectorOp → List Nat
  | .vldb _ _ _ _ _ => [0, 1, 2, 3]
  | _ => e.lanesOn 8

/-- The displacement of a VMEM form in bytes, its address and its post-increment (05_vector.md R164). -/
def State.vmemEa (s : State) (ab : Fin 16) (pi : Bool) (i : BitVec 10) : W64 := if pi then s.areg ab else s.areg ab + (i.signExtend 64) <<< 2

def State.vmemInc (s : State) (u : Bool) (ab : Fin 16) (pi : Bool) (i : BitVec 10) : List Pend :=
  if pi then [s.write (if u then 4 else 3) 1 (.a ab) (s.areg ab + (i.signExtend 64) <<< 2).toNat none] else []

/-- A command that a matrix slot pushes, with what it reads at issue (07_matrix_ops.md R192, R194). -/
def State.matCmd (s : State) (x : Slot) (op : MatrixOp) (grant : Nat) (rings : List (Fin 16)) (vd : Nat) : MatCmd :=
  let k := s.here
  let look := (lutForm op).isSome
  { id := k.eng.nextId, g := x.g, op := op, baddr := k.pc, iss := k.now, bseq := k.bseq, handler := k.handler,
    cfg := if look then k.regs.cbCfg.toNat else 0, cbGen := if look then k.regs.cbGen.toNat else 0, gm := shM grant, gn := shN grant,
    gk := shKB grant, gens := rings.map fun h => (h, (k.rings[h]).gen), st := .waiting, vd := vd, win := k.eng.win[engIdx .m], tiles := [],
    mask := 0, done := [] }

/-- The matrix queue with one command more. -/
def State.matPushed (s : State) (m : MatCmd) : Acc :=
  { s.blank with eng := { s.here.eng with mq := s.here.eng.mq ++ [m], nextId := s.here.eng.nextId + 1 } }

/-- Table 7-2 passes for a lookup, and the codebook context is valid (07_matrix_ops.md R195). -/
def State.lookupOk (s : State) (f : LutForm) : Bool :=
  let k := s.here
  !(gridBad (k.regs.sh[f.sh]).toNat f.row.val f.col.val) && f.rings.all (fun h => (k.rings[h]).init) && f.ht != f.hw &&
    (match f.lists with | some (p, q) => p != f.ht && p != f.hw && q != f.ht && q != f.hw | none => true) && cbValid k.regs.cbCfg.toNat

/-- The command block of a copy instruction: 64 bytes in the scratchpad (08_core_memory.md R230). -/
def State.blockAt (s : State) (ab : Fin 16) : Nat := readLE s.here.spad (s.areg ab).toNat 64

/-- The checks of Table 8-5 pass for a copy instruction with a block, its queue has room, nothing locks the block, and no
acquire of an earlier bundle is outstanding (R230, R240; 11_ordering.md R311). -/
def State.copyOk (s : State) (u : Bool) (f : CopyForm) : Bool :=
  let k := s.here
  let ea := (s.areg f.ab).toNat
  decide (ea + 64 ≤ 0x80000) && ea % 64 == 0 && (blockFault k.rings f.kind (s.blockAt f.ab)).isNone && decide ((k.eng.yq[copyIdx u]).length < 32) &&
    (k.eng.lockOn (rangeOf ea 64)).isNone && !k.acquiring

/-- What a ring instruction that neither traps nor waits leaves of its ring and of the engines (08_core_memory.md R219, R221 to R223). -/
def ringEffect (s : State) : ControlOp → Option (Fin 16 × Ring × Engines)
  | .hinit d a =>
    let g := s.here.rings[d]
    let renewed (r : Ring) : Fin 16 × Ring × Engines :=
      (d, r, (s.here.eng.stopCopies ((s.here.eng.ringUsers d g.gen).map CopyCmd.id)).dropHeld (s.here.rings.set d r))
    if s.sreg a = 0 then some (renewed { g with init := false, gen := g.gen + 1 })
    else if ringDescBad (s.sreg a).toNat then none
    else some (renewed ⟨true, g.gen + 1, s.sreg a, 0, 0, 0, 0, none, [], []⟩)
  | .hwait d n =>
    let g := s.here.rings[d]
    if g.init = true ∧ n.toNat ≤ g.nslot ∧ n.toNat ≤ (g.t - g.h).toNat then some (d, g, s.here.eng) else none
  | .hres d n =>
    let g := s.here.rings[d]
    if g.init = true ∧ n.toNat ≤ g.nslot ∧ (n.toNat = 0 ∨ (g.a - g.h).toNat + n.toNat ≤ g.nslot) then
      some (d, { g with a := g.a + BitVec.ofNat 32 n.toNat,
                        marks := g.marks ++ (List.range n.toNat).map fun i => g.a + BitVec.ofNat 32 i }, s.here.eng)
    else none
  | .hadv d n =>
    let g := s.here.rings[d]
    if g.init = true ∧ n.toNat ≤ g.nslot ∧ n.toNat ≤ (g.t - g.h).toNat ∧ (g.win = false ∨ n.toNat ≤ (g.c - g.h).toNat) then
      some (d, { g with h := g.h + BitVec.ofNat 32 n.toNat }, s.here.eng)
    else none
  | _ => none

/-- A barrier word that a form reaches: translated and checked without a walk that changes anything, and not poisoned at
its home (10_cluster.md R292, R300). -/
def State.barOk (s : State) (kind : AccKind) (va : W64) (xl : Xlate) (p : Place) : Prop :=
  s.alignedCheck (s.who s.cur.1 s.cur.2) kind va 8 false = (.ok (xl, p), s) ∧ (p == .mem && s.homePoison s.cur.1 s.cur.2 xl.pa) = false

/-- A word that a form tests at its home: aligned, translated without a walk that changes anything, not at a fabric address, and not poisoned
there (10_cluster.md R300; 15_fabric.md R406). -/
def State.homeOk (s : State) (va : W64) (xl : Xlate) (p : Place) : Prop :=
  s.alignedCheck (s.who s.cur.1 s.cur.2) .read va 8 false = (.ok (xl, p), s) ∧ p ≠ .fabric ∧
    (p == .mem && s.homePoison s.cur.1 s.cur.2 xl.pa) = false

/-- The virtual address of one of the thread's own barrier words (10_cluster.md R287). -/
def State.ownBarVa (s : State) (n : Nat) : W64 := s.here.thr.barBase + BitVec.ofNat 64 (8 * n)

/-- The fault of a scratchpad access of `n` bytes at `ea` (04_control_scalar.md Table 4-10, rows 1 and 2). -/
def spadFault (ea : W64) (n : Nat) : Option SlotFault :=
  if ea.toNat + n > 0x80000 then some { cause := .dataFault, faddr := ea.toNat, bad := ea.toNat }
  else if ea.toNat % n ≠ 0 then some { cause := .align, faddr := ea.toNat, bad := ea.toNat }
  else none

/-- The fault of a global access of `n` bytes at `ea` that needs no translation (Table 4-10, rows 1 and 2). -/
def globalFault (ea : W64) (n : Nat) : Option SlotFault :=
  if canonical ea = false then some { cause := .dataFault, faddr := ea.toNat, bad := ea.toNat }
  else if ea.toNat % n ≠ 0 then some { cause := .align, faddr := ea.toNat, bad := ea.toNat }
  else none

/-- PRIV of a CSR access (09_core_traps.md R278; 14_package.md R372). -/
def State.csrFault (s : State) (n : BitVec 11) (write : Bool) : Option SlotFault :=
  if s.csrAllowed n.toNat write then none else some { cause := .priv }

/-- A cause under a condition. -/
def causeIf (c : Cause) (p : Bool) : Option SlotFault := if p then some { cause := c } else none

/-- Faults that a slot raises by its operands, its mode or its rings (04_control_scalar.md R97 to R110; 07_matrix_ops.md Table 7-2;
08_core_memory.md R219, R222 to R224; 09_core_traps.md R257, R259, R278; 10_cluster.md R292, R295, R296; 13_scheduling.md R347). -/
def slotFault (s : State) : Op → Option SlotFault
  | .c (.brp _ _ ps) =>
    let p := s.preg ps % 2 ^ s.here.regs.vl
    if p = 0 ∨ p = 2 ^ s.here.regs.vl - 1 then none else some { cause := .diverge, info := s.preg ps % 2 ^ 64 }
  | .c (.brx a) => if (s.sreg a).toNat % 4 = 0 then none else some { cause := .align, faddr := (s.sreg a).toNat, bad := (s.sreg a).toNat }
  | .c (.pbrs _ a) => if (s.sreg a).toNat % 4 = 0 then none else some { cause := .align, faddr := (s.sreg a).toNat, bad := (s.sreg a).toNat }
  | .c (.shape _ a _) => if s.here.handler then some { cause := .priv } else causeIf .shape (shapeBad (s.sreg a).toNat)
  | .c (.shapex _ _ imm) => if s.here.handler then some { cause := .priv } else causeIf .shape (shapeBad imm.toNat)
  | .c (.hinit _ a) => causeIf .ringMisuse (s.sreg a != 0 && ringDescBad (s.sreg a).toNat)
  | .c (.hwait d n) => let g := s.here.rings[d]; causeIf .ringMisuse (!g.init || decide (n.toNat > g.nslot))
  | .c (.hres d n) => let g := s.here.rings[d]; causeIf .ringMisuse (!g.init || decide (n.toNat > g.nslot))
  | .c (.hadv d n) =>
    let g := s.here.rings[d]
    causeIf .ringMisuse (!g.init || decide (n.toNat > g.nslot) || decide (n.toNat > (g.t - g.h).toNat) ||
      (g.win && decide (n.toNat > (g.c - g.h).toNat)))
  | .c (.hcommit d a) =>
    let g := s.here.rings[d]
    causeIf .ringMisuse (!g.init || !g.win || decide ((s.sreg a).toNat > (g.a - g.c).toNat))
  | .c (.barinit _ _) => causeIf .launch (s.here.thr.barBase == 0)
  | .c (.bararv _ _) => causeIf .launch (s.here.thr.barBase == 0)
  | .c (.barwait _ _) => causeIf .launch (s.here.thr.barBase == 0)
  | .c (.gjoin a) =>
    causeIf .launch (bits (s.sreg a).toNat 15 5 != 0 || bits (s.sreg a).toNat 63 26 != 0 || s.here.thr.barBase == 0)
  | .c (.gleave a) => causeIf .launch (bits (s.sreg a).toNat 63 5 != 0)
  | .c (.lpatch a _ _) => causeIf .launch (s.recOperand (s.sreg a)).isNone
  | .c (.larm _ a) => causeIf .launch (s.recOperand (s.sreg a)).isNone
  | .c .rft => causeIf .priv (!s.here.handler)
  | .c .sret => causeIf .priv (!s.here.tap.sm)
  | .c .wfi => causeIf .priv (!s.here.tap.sm)
  | .c (.csrrd _ n) => s.csrFault n false
  | .c (.csrwr _ n) => s.csrFault n true
  | .c (.csrset _ n) => s.csrFault n true
  | .c (.csrclr _ n) => s.csrFault n true
  | .a o =>
    match spadLoad o, spadStore o, globalLoad o, globalStore o, orderedForm o with
    | some (w, _, _, ab, pi, i), _, _, _, _ => spadFault (s.gmemEa ab pi i) w
    | _, some (w, _, ab, pi, i), _, _, _ => spadFault (s.gmemEa ab pi i) w
    | _, _, some (w, _, _, ab, pi, i), _, _ => globalFault (s.gmemEa ab pi i) w
    | _, _, _, some (w, _, ab, pi, i), _ => globalFault (s.gmemEa ab pi i) w
    | _, _, _, _, some (_, w, _, ab, _, i) => globalFault (s.areg ab + i.signExtend 64) w
    | _, _, _, _, _ =>
      match o with
      | .ldf _ ab pi i => spadFault (s.gmemEa ab pi i) 4
      | .ldfe _ ab pi i => spadFault (s.gmemEa ab pi i) 4
      | .ste _ ab pi i => spadFault (s.gmemEa ab pi i) 4
      | .feemp ab pi i => spadFault (s.gmemEa ab pi i) 4
      | .waita _ ab pi i => spadFault (s.gmemEa ab pi i) 4
      | _ => none
  | .m (.maclr row col sh) => causeIf .shape (gridBad (s.here.regs.sh[sh]).toNat row.val col.val)
  | .m (.mmask h) => causeIf .ringMisuse (!(s.here.rings[h]).init)
  | .m o =>
    match lutForm o with
    | some f =>
      if gridBad (s.here.regs.sh[f.sh]).toNat f.row.val f.col.val then some { cause := .shape }
      else if f.rings.any fun h => !(s.here.rings[h]).init then some { cause := .ringMisuse }
      else if f.ht == f.hw || (match f.lists with | some (p, q) => p == f.ht || p == f.hw || q == f.ht || q == f.hw | none => false) then
        some { cause := .ringMisuse }
      else causeIf .codebook (!cbValid s.here.regs.cbCfg.toNat)
    | none => none
  | .y _ o =>
    match copyForm o with
    | some f => spadFault (s.areg f.ab) 64
    | none => none
  | _ => none

/-- The command that a copy instruction with a block pushes, with what it reads at issue (08_core_memory.md R221, R227, R230, R242). -/
def State.copyCmd (s : State) (x : Slot) (u : Bool) (o : CopyOp) (f : CopyForm) : CopyCmd :=
  let k := s.here
  let b := s.blockAt f.ab
  let h : Fin 16 := Fin.ofNat 16 (blkHandle b)
  let g := k.rings[h]
  let ring := f.kind.usesRing b
  { id := k.eng.nextId, g := x.g, op := o, blk := b, baddr := k.pc, iss := k.now, bseq := k.bseq, handler := k.handler,
    ring := if ring then some (h, g.gen, g.a) else none, st := .waiting, chunk := 0,
    lock := lockOf f b (if ring then g.slotAddr g.a else 0), win := k.eng.win[engIdx (copyEng u)], cancel := false, halted := false,
    scale := 0, evs := [], page := none, mats := if f.kind = .accp then k.eng.mq.map (·.id) else [], snap := [],
    rng := none }

/-- The rings once a copy instruction has issued: a producer takes the next entry of its ring (08_core_memory.md R221). -/
def State.copyRings (s : State) (f : CopyForm) : Vector Ring 16 :=
  let b := s.blockAt f.ab
  let h : Fin 16 := Fin.ofNat 16 (blkHandle b)
  if f.kind.usesRing b && f.kind != .push then s.here.rings.set h { s.here.rings[h] with a := (s.here.rings[h]).a + 1 } else s.here.rings

/-- The engines with one command more in a copy queue. -/
def Engines.withCopy (e : Engines) (u : Bool) (y : CopyCmd) : Engines :=
  { e with yq := e.yq.set (copyIdx u) (e.yq[copyIdx u] ++ [y]), nextId := e.nextId + 1 }

/-- The width in bytes that a gather or scatter moves, its base, its space and its index vector (05_vector.md R166, R167). -/
def gatherForm : VectorOp → Option (Fin 32 × Fin 16 × Bool × Fin 40 × Nat)
  | .vgath vd ab sp vi es => some (vd, ab, sp, vi, widthBits es / 8)
  | .vscat vd ab sp vi es => some (vd, ab, sp, vi, widthBits es / 8)
  | .vscata vd ab sp vi es => some (vd, ab, sp, vi, widthBits es / 8)
  | _ => none

/-- The order of a ring's counters and entries, counted from H: H ≤ C ≤ T ≤ A and T ≤ H + NSLOT (08_core_memory.md R218); C is T but in a window
ring (R221); what is marked or finished is assigned, not pushed, and within the slots, and no entry is both (R219, R221). -/
def Ring.ordered (g : Ring) : Prop :=
  let n (x : BitVec 32) : Nat := (x - g.h).toNat
  n g.c ≤ n g.t ∧ n g.t ≤ n g.a ∧ n g.t ≤ g.nslot ∧ (g.win = false → g.c = g.t) ∧
    (∀ e ∈ g.marks ++ g.done, n g.t ≤ n e ∧ n e < n g.a ∧ n e < g.nslot) ∧ g.marks.Nodup ∧ ∀ e ∈ g.done, e ∉ g.marks

/-- Values of a digit (the code width C), group size and entries of a table under a cb.cfg value (05_vector.md R154; 06_lut_engine.md Table 6-1). -/
def digitCount (cfg : Nat) : Nat := if bits cfg 1 0 = 0 then 3 else if bits cfg 1 0 = 1 then 4 else if bits cfg 1 0 = 2 then 16 else 2
def groupSize (cfg : Nat) : Nat := bits cfg 6 4
def entryCount (cfg : Nat) : Nat :=
  if cfg.testBit 7 then (digitCount cfg ^ groupSize cfg + 1) / 2 else digitCount cfg ^ groupSize cfg

/-- entry(g, v) of R154: the sum of val[digit j of v in base C] × a[G × g + j]. -/
def entrySum (cfg vals acts g v : Nat) : Int :=
  let byte (x i : Nat) : Int := (BitVec.ofNat 8 (elemAt x 8 i)).toInt
  let val (i : Nat) : Int := if bits cfg 1 0 = 3 then (if i = 0 then -1 else 1) else byte vals i
  ((List.range (groupSize cfg)).map fun j => val (v / digitCount cfg ^ j % digitCount cfg) * byte acts (groupSize cfg * g + j)).sum

/-- The groups of a row with those added under LAYOUT 1, and the offset of entry (g, v) in the row (R154). -/
def rowGroups (cfg ng : Nat) : Nat := if cfg.testBit 8 then (ng + 3) / 4 * 4 else ng
def rowOffset (cfg g v : Nat) : Nat :=
  if cfg.testBit 8 then 2 * (4 * entryCount cfg * (g / 4) + 4 * v + g % 4) else 2 * (g * entryCount cfg + v)

/-- What code `v` of group `g` adds to the block sum over row `r` of a table tile `t`: its entry, under HALVE the negated entry of the mirrored
code, and 0 for a code out of range (06_lut_engine.md R173, R174; the row's layout is that of 05_vector.md R154). -/
def codeTerm (cfg t ng r g v : Nat) : Int :=
  let row := tileField t 24 4 + r * (2 * entryCount cfg * rowGroups cfg ng)
  let entry (v : Nat) : Int := (BitVec.ofNat 16 (tileField t (row + rowOffset cfg g v) 2)).toInt
  let all := digitCount cfg ^ groupSize cfg
  if all ≤ v then 0 else if cfg.testBit 7 ∧ entryCount cfg ≤ v then -(entry (all - 1 - v)) else entry v

/-- The stored code of group `g` of column `n` of a weight tile `w` (R173, Table 6-3, Table 6-6): a byte, or a nibble, the even group in the
low one. -/
def storedCode (cfg w ng n g : Nat) : Nat :=
  let wide := groupSize cfg > (if bits cfg 1 0 = 2 then 1 else 2)
  let run := tileField w 24 4 + n * (4 * ceilDiv (ng * (if wide then 8 else 4)) 32)
  if wide then tileField w (run + g) 1 else tileField w (run + g / 2) 1 / 16 ^ (g % 2) % 16

/-- Element (i, n) of a plain lookup on table tile `t` and weight tile `w` under a cb.cfg value, from the start value `e`, over at most `kb` blocks:
for each block in order the sum of the terms of its codes, times w_scale times a_scale, rounded once, then added and rounded once (03_numbers.md
R92; 06_lut_engine.md R174, R175, R184; 07_matrix_ops.md R200). -/
def lookupElement (cfg t w kb e i n : Nat) : Nat :=
  let ng := ceilDiv (tileField w 8 2) (groupSize cfg)
  let bg := 2 ^ bits cfg 12 9 / groupSize cfg
  let nb := ceilDiv ng bg
  let aScale := Fmt.e5m3.decode (tileField t (tileField t 20 4 + i) 1)
  (List.range (Nat.min nb kb)).foldl (fun e q =>
    let isum := ((List.range (Nat.min ng ((q + 1) * bg) - q * bg)).map fun j =>
      codeTerm cfg t ng i (q * bg + j) (storedCode cfg w ng n (q * bg + j))).sum
    let wScale := Fmt.e5m3.decode (tileField w (tileField w 20 4 + n * nb + q) 1)
    let p := (Fmt.fp32.round .rne ((Num.ofInt isum).mul (wScale.mul aScale))).1
    (Fmt.fp32.round .rne ((Fmt.fp32.decode e).add (Fmt.fp32.decode p))).1) e

/-- The bounds of a core: its scratchpad in the canonical form (00_scope.md R5), VL from 1 to 256 and p0 all ones (01_bundles.md R14 and
Table 1-2), at most 16 matrix commands (07_matrix_ops.md R192) and 32 copy commands an engine (08_core_memory.md R230). -/
def Core.inBounds (k : Core) : Prop :=
  swf k.spad = true ∧ 1 ≤ k.regs.vl ∧ k.regs.vl ≤ 256 ∧ k.regs.p[(0 : Fin 8)] = BitVec.allOnes 256 ∧ k.eng.mq.length ≤ 16 ∧
    ∀ y : Fin 2, (k.eng.yq[y]).length ≤ 32

/-- A core whose queues have no more entries than a context save area has records for (09_core_traps.md R254, R260, Table 9-5; 07_matrix_ops.md R192;
08_core_memory.md R230, R239), with no lookup stopped between elements, accumulators and scratchpad within their sizes. -/
def Core.fitsArea (k : Core) : Prop :=
  k.records ≤ 64 ∧ k.eng.mq.length ≤ 16 ∧ (∀ y : Fin 2, (k.eng.yq[y]).length ≤ 32 ∧ (k.eng.spill[y]).length ≤ 64 ∧ (k.eng.errs[y]).length ≤ 4) ∧
    (k.eng.mq.any fun m => m.st.isStarted) = false ∧ (∀ e ∈ k.eng.acc, e.1 < 2 ^ 15) ∧ (∀ e ∈ k.spad, e.1 < 0x80000) ∧ swf k.spad = true

/-- A core whose save neither waits nor takes anything else home: nothing in its memory pipeline, its statistics queue and its L1, nor in its
slice and its bridge stop. -/
def State.saveReady (s : State) (d : Fin 4) (c : Fin 68) : Prop :=
  let k := s.core d c
  k.memq = [] ∧ k.stats = [] ∧ k.l1 = [] ∧ (s.slice d (clusterOf c)).lines = [] ∧ (s.die d).bridge = [] ∧ k.run = .running ∧
    s.hasMem k.thr.csa = true ∧ Memory.wf s.mem = true

/-- Every core, and every core that a record of the Nursery keeps, is within its bounds. -/
def State.coresInBounds (s : State) : Prop :=
  ∀ d, (∀ c, (s.core d c).inBounds) ∧ ∀ r ∈ (s.die d).recs, ∀ k, r.saved = some k → k.inBounds

end Sys2Proof.Machine
end

