-- ==== Sys2Proof/Certificates/Slice0/Obligations.lean ====
section
/-! DEFINITION. What the provers are to prove of this model: the rules of the spec as statements about it. -/

open Sys2Proof Sys2Proof.Machine

/-- 01_bundles.md R30: a no-operation of each class issues in one schedule cycle and does nothing else (02_encodings.md R54). -/
def Obligations.NopsIssue : Prop :=
  ∀ (s : State) (i : Instr) (x : Slot), i.slot = some x → i ∈ [.cnop, .snop, .anop, .vnop false, .vnop true, .mnop, .ynop false, .ynop true] →
    s.ready x = true → exec i s = .next (s.issuedWrites x [])

/-- 01_bundles.md R23, R28, R29, R31, R39, R41: what does not take part. A slot whose guard is 0 over every lane below VL, and one on elements of
which none is enabled, has no effect: its bundle issues as with a no-operation there. A guard that must be uniform and is not raises DIVERGE
at its slot. A bundle that SKIPSEL skips advances the pc and one cycle, whatever it holds. -/
def Obligations.GuardedSlots : Prop :=
  ∀ (s : State) (x : Slot), s.awake = true → s.calm = true → s.here.noneOwed = true →
    let p := s.preg x.g.p
    let on (i : Nat) : Bool := p.testBit i != x.g.inv
    let w := (semOp x.op).unit s.here
    (s.admits x = true → s.here.regs.vl ≤ 256 →
      (w = 0 → (∀ i, i < s.here.regs.vl → on i = false) → exec x.instr s = .next (s.issuedWrites x [])) ∧
      (w ≠ 0 → (∀ i, w * i < 8 * s.here.regs.vl → on (w * i / 8) = false) → exec x.instr s = .next (s.issuedWrites x [])) ∧
      (w = 0 → ∀ i j, i < s.here.regs.vl → j < s.here.regs.vl → on i = true → on j = false →
        exec x.instr s =
          .next (s.takeTrap s.cur.1 s.cur.2 { cause := .diverge, mask := 2 ^ x.op.slot.val, info := p % 2 ^ 64 } true))) ∧
    (∀ (n : Fin 3) (stall word : Nat) (next : W64), fetchHead s.cur.1 s.cur.2 s = (.ok (n.val + 1) stall next word, s) →
      s.here.regs.sk[n] = false → s.quiet = true →
      exec (.bundleIssue s.cur.1 s.cur.2) s = .next (s.setCore s.cur.1 s.cur.2 { s.here with
        pc := next, stallTaken := false
        cyc := if s.here.handler then s.here.cyc else s.here.cyc + 1
        hcyc := if s.here.handler then s.here.hcyc + 1 else s.here.hcyc }))

/-- 04_control_scalar.md R114 to R118 and Table 4-7: the results of the scalar class. SPSET sets lanes 0 to sA − 1 of its predicate and clears
the others, without a latch; its write to p0 is discarded (R118), and p0 goes on reading as all ones. -/
def Obligations.ScalarResults : Prop :=
  (∀ (s : State) (g : Guard) (o : ScalarOp) (lat : Nat) (d : Fin 32) (v : W64),
    scalarResult s o = some (lat, d, v) → s.ready ⟨g, .s o⟩ = true →
    exec (Slot.instr ⟨g, .s o⟩) s = .next (s.issuedWrites ⟨g, .s o⟩ [s.write 1 lat (.s d) v.toNat (some 2)])) ∧
  ∀ (s : State) (g : Guard) (d : Fin 8) (a : Fin 32), s.ready ⟨g, .s (.spset d a)⟩ = true →
    exec (.spset g d a) s = .next (s.issuedWrites ⟨g, .s (.spset d a)⟩
      [{ s.write 1 1 (.p d) (2 ^ Nat.min (s.sreg a).toNat 256 - 1) none with en := 2 ^ 256 - 1 }]) ∧
    (d = 0 → s.quiet = true → exec (.spset g d a) s =
      .next (s.setCore s.cur.1 s.cur.2 (s.wentOn ⟨g, .s (.spset d a)⟩ s.here.regs [])))

/-- 04_control_scalar.md R96, R100 to R106, R119; 07_matrix_ops.md R197, R198, R212; 08_core_memory.md R220, R225: the results of the address, the
control and the matrix class that reach no memory and no queue, at latency 1; those of the address class also take bp.a. -/
def Obligations.PlainResults : Prop :=
  ∀ (s : State) (x : Slot) (d : Dst), s.ready x = true →
    (∀ o v, x.op = .a o → addressResult s o = some (d, v) →
      exec x.instr s = .next (s.issuedWrites x [s.write 2 1 d v.toNat (some 3)])) ∧
    (∀ o v, x.op = .c o → controlResult s o = some (d, v) → exec x.instr s = .next (s.issuedWrites x [s.write 0 1 d v none])) ∧
    (∀ o v, x.op = .m o → matrixResult s o = some (d, v) → exec x.instr s = .next (s.issuedWrites x [s.write 5 1 d v none]))

/-- 04_control_scalar.md R97 to R99 and Table 4-1: the branches. Behind a taken one the core stands at the target, behind another at the next
bundle. -/
def Obligations.Branches : Prop :=
  ∀ (s : State) (g : Guard) (o : ControlOp) (t : Option W64) (l : List (Dst × Nat)),
    branchTo s ⟨g, .c o⟩ o = some (t, l) → s.ready ⟨g, .c o⟩ = true →
    exec (Slot.instr ⟨g, .c o⟩) s = .next (s.issued ⟨g, .c o⟩
      { s.blank with branch := t, pends := l.map fun w => s.write 0 1 w.1 w.2 none }) ∧
    ∀ u, exec (Slot.instr ⟨g, .c o⟩) s = .next u → u.here.pc = t.getD (s.nextPc ⟨g, .c o⟩)

/-- A write that lands at the next cycle takes its register, or the CSR of its number, with its latch and what else the spec hangs on it (VL of a
vector grant, cb.gen, nothing for p0), and nothing else of the device changes: not memory, not the scratchpad, not another core, not another
register (01_bundles.md R15, R30, R32). -/
def Obligations.ResultFrame : Prop :=
  ∀ (s : State) (x : Slot) (w : Pend) (k : Core),
    s.ready x = true → s.quiet = true → w.land = s.here.now + 1 → w.evs = [] → landed (s.wentOn x s.here.regs []) w = some k →
    s.issuedWrites x [w] = s.setCore s.cur.1 s.cur.2 k

/-- 01_bundles.md R30, R32: while no write lands at the next cycle, a slot that has issued with writes of longer latencies on their way, or
with none, has changed the pc, the cycle and the bundle count of its core, and nothing else of the device. One that has gathered more changes of
its core what it gathered: rings, commands, scratchpad, full/empty bits, random states, entries of the memory pipeline, its loads before its
stores (R38; DEDUCED, log 12), idle cycles, the halt; the writes that it discards are gone (08_core_memory.md R227); a change of the scratchpad
touches of the engines what a lookup has read of its tiles, as `Core.setSpad` says (06_lut_engine.md R183; DESIGN CHOICE, log 40). No other register, no CSR,
no byte of memory, no other core. -/
def Obligations.IssueFrame : Prop :=
  ∀ (s : State) (x : Slot) (l : List Pend), s.ready x = true → s.quiet = true → (∀ w ∈ l, s.here.now + 1 < w.land) →
    s.issuedWrites x l = s.setCore s.cur.1 s.cur.2 (s.wentOn x s.here.regs l) ∧
    ∀ a : Acc, a.st = s → a.after = none → a.rft = false → a.sret = false → a.post = [] → a.pends = l →
      s.issued x a = s.setCore s.cur.1 s.cur.2 (({ s.wentOn x { s.here.regs with rng := a.rng } l with
        rings := a.rings
        eng := a.eng
        full := a.full
        pend := (s.here.pend.filter fun w => !a.stale w) ++ l
        srb := s.here.srb.filter fun w => !a.stale w
        memq := s.here.memq ++ ((a.memq.filter fun m => m.kind.isLoad) ++ a.memq.filter fun m => !m.kind.isLoad)
        pc := a.branch.getD (s.nextPc x)
        delay := a.delay
        haltAddr := if a.halt then s.here.pc else s.here.haltAddr
        run := if a.halt then .halted else s.here.run } : Core).setSpad a.spad)

/-- 04_control_scalar.md Table 4-7 read as a program sees it: after ADD, sD holds the sum of sA and sB modulo 2^64, every other s register
what it held, and every byte of memory is as before. -/
def Obligations.AddResult : Prop :=
  ∀ (s : State) (g : Guard) (d a b : Fin 32), s.ready ⟨g, .s (.add d a b)⟩ = true → s.quiet = true →
    ∃ t, exec (.add g d a b) s = .next t ∧ t.sreg d = s.sreg a + s.sreg b ∧ (∀ n, n ≠ d → t.sreg n = s.sreg n) ∧
      (∀ n, t.areg n = s.areg n) ∧ t.here.regs.v = s.here.regs.v ∧ t.here.regs.p = s.here.regs.p ∧ t.here.csr = s.here.csr ∧
      t.here.pc = s.nextPc ⟨g, .s (.add d a b)⟩ ∧ (∀ m, sget t.mem m = sget s.mem m) ∧ (∀ m, sget t.here.spad m = sget s.here.spad m)

/-- 04_control_scalar.md R114: a product lands three cycles after MUL issues: two no-operations later, and not before. -/
def Obligations.MulLands : Prop :=
  ∀ (s : State) (g : Guard) (d a b : Fin 32), s.ready ⟨g, .s (.mul d a b)⟩ = true → s.here.pend = [] → s.here.stay = [] →
    s.here.srb.length ≤ 48 → s.here.waitc = none → (slotRefusal (s.here.profile s.cur.2) ⟨.always, .s .snop⟩).isNone = true →
    s.here.addrBreak = none → (∀ (i : Fin 4), (s.here.csr.bpCtl[i]).getLsbD 0 = false) →
    ∃ t u v, exec (.mul g d a b) s = .next t ∧ t.sreg d = s.sreg d ∧ exec .snop t = .next u ∧ u.sreg d = s.sreg d ∧
      exec .snop u = .next v ∧ v.sreg d = s.sreg a * s.sreg b

/-- 04_control_scalar.md R120, R121: LDSP reads the bytes at EA, extends them, and delivers at latency 4; STSP writes the low bytes of sD at EA. -/
def Obligations.ScratchpadAccesses : Prop :=
  ∀ (s : State) (g : Guard) (o : AddressOp) (w : Nat) (fmt : LdFmt) (d : Fin 32) (ab : Fin 16) (pi : Bool) (i : BitVec 11),
    let x : Slot := ⟨g, .a o⟩
    let ea := s.gmemEa ab pi i
    s.ready x = true →
    (spadLoad o = some (w, fmt, d, ab, pi, i) → s.spadOk x true false ea w = true →
      exec x.instr s = .next (s.issuedWrites x (s.gmemInc ab pi i ++
        [s.write 2 4 (.s d) (BitVec.ofNat 64 (fmt.apply (readLE s.here.spad ea.toNat w))).toNat (some 3)]))) ∧
    (spadStore o = some (w, d, ab, pi, i) → s.spadOk x false true ea w = true →
      exec x.instr s = .next (s.issued x { s.blank with
        pends := s.gmemInc ab pi i, spad := writeLE s.here.spad ea.toNat w (s.sreg d).toNat }))

/-- What STSP leaves: the bytes from EA hold sD little-endian, every other byte of the scratchpad and every byte of memory is as before, and
so is every register but the base that a post-increment moves, and bp.a with it (04_control_scalar.md R120), every CSR, every ring, and every
full/empty bit (R124). -/
def Obligations.ScratchpadStoreFrame : Prop :=
  ∀ (s : State) (g : Guard) (o : AddressOp) (w : Nat) (d : Fin 32) (ab : Fin 16) (pi : Bool) (i : BitVec 11),
    spadStore o = some (w, d, ab, pi, i) → s.ready ⟨g, .a o⟩ = true → s.spadOk ⟨g, .a o⟩ false true (s.gmemEa ab pi i) w = true →
    s.quiet = true → swf s.here.spad = true →
    let moved := s.areg ab + i.signExtend 64
    let r := writeA s.here.regs s.here.handler ab moved
    ∃ t, exec (Slot.instr ⟨g, .a o⟩) s = .next t ∧
      (∀ n, n < w → sget t.here.spad ((s.gmemEa ab pi i).toNat + n) = BitVec.ofNat 8 ((s.sreg d).toNat / 256 ^ n)) ∧
      (∀ m, m < (s.gmemEa ab pi i).toNat ∨ (s.gmemEa ab pi i).toNat + w ≤ m → sget t.here.spad m = sget s.here.spad m) ∧
      (∀ m, sget t.mem m = sget s.mem m) ∧
      t.here.regs = (if pi then { r with bp := r.bp.set 3 (BitVec.ofNat 2048 moved.toNat) } else s.here.regs) ∧
      (∀ n, t.sreg n = s.sreg n) ∧ (∀ n, t.areg n = if pi = true ∧ n = ab then moved else s.areg n) ∧
      t.here.csr = s.here.csr ∧ t.here.rings = s.here.rings ∧ t.here.full = s.here.full

/-- 04_control_scalar.md R122: LDG enters the memory pipeline with the bytes at EA, STG the store queue with the low bytes of sD. Memory changes
when the entry is performed, not now. -/
def Obligations.GlobalAccesses : Prop :=
  ∀ (s : State) (g : Guard) (o : AddressOp) (w : Nat) (fmt : LdFmt) (d : Fin 32) (ab : Fin 16) (pi : Bool) (i : BitVec 11) (xl : Xlate) (p : Place),
    let x : Slot := ⟨g, .a o⟩
    let ea := s.gmemEa ab pi i
    s.ready x = true →
    (globalLoad o = some (w, fmt, d, ab, pi, i) → s.globalOk x .read ea w true xl p →
      exec x.instr s = .next (s.issued x { s.blank with
        pends := s.gmemInc ab pi i, memq := [s.entry 2 (.load (.s d) fmt ((List.range w).map fun n => (n, xl.pa + n)) false xl.cw none)] })) ∧
    (globalStore o = some (w, d, ab, pi, i) → s.globalOk x .write ea w false xl p →
      exec x.instr s = .next (s.issued x { s.blank with
        pends := s.gmemInc ab pi i, memq := [s.entry 2 (.store (cellsOf xl.pa (s.sreg d).toNat w) xl.cw false)] }))

/-- 04_control_scalar.md R128, R129: LDAQ is a load that acquires at its scope when it is performed, STRL a store that releases; the release
names the commands that earlier QFENCEs have joined. -/
def Obligations.OrderedAccesses : Prop :=
  ∀ (s : State) (g : Guard) (o : AddressOp) (st : Bool) (w : Nat) (d : Fin 32) (ab : Fin 16) (sc : Scope) (i : BitVec 9) (xl : Xlate) (p : Place),
    orderedForm o = some (st, w, d, ab, sc, i) → s.ready ⟨g, .a o⟩ = true →
    s.globalOk ⟨g, .a o⟩ (if st then .write else .read) (s.areg ab + i.signExtend 64) w false xl p →
    (st = false → p = .mem → s.acquirePoison s.cur.1 s.cur.2 sc xl.pa = false) →
    (st = false → p = .fabric → s.fabFault xl.pa .read (s.areg ab + i.signExtend 64) = none) →
    exec (Slot.instr ⟨g, .a o⟩) s = .next (s.issued ⟨g, .a o⟩ { s.blank with
      memq := [s.entry 2 (if st then .release (cellsOf xl.pa (s.sreg d).toNat w) sc s.here.eng.joined
        else .load (.s d) (.sext (8 * w)) ((List.range w).map fun n => (n, xl.pa + n)) false xl.cw (some sc))] })

/-- 04_control_scalar.md R125, R126: the full/empty forms, each when its word is as it waits for. LDF, LDFE and WAITA on an empty word,
WAITA on one below its value, and STE on a full one, wait: the bundle does not issue, and only the wait is counted; of the counted wait, the agent
and the number of cycles are the model's reading (DEDUCED, log 33). -/
def Obligations.FullEmpty : Prop :=
  ∀ (s : State) (g : Guard) (d : Fin 32) (ab : Fin 16) (pi : Bool) (i : BitVec 11),
    let ea := (s.gmemEa ab pi i).toNat
    let word := readLE s.here.spad ea 4
    let full := s.here.full.contains (ea / 4)
    let inc := s.gmemInc ab pi i
    let ok (o : AddressOp) : Prop := s.ready ⟨g, .a o⟩ = true ∧ s.spadOk ⟨g, .a o⟩ true true (s.gmemEa ab pi i) 4 = true
    let result := s.write 2 4 (.s d) (BitVec.ofNat 64 word).toNat (some 3)
    let least := (s.sreg d).toNat % 2 ^ 32
    let waits (o : AddressOp) (u : Until) : Prop := ok o →
      exec (Slot.instr ⟨g, .a o⟩) s = .next (s.setCore s.cur.1 s.cur.2 { s.here.wait
        { kind := 4, object := ea, agent := agentUnknown, slot := 2, ends := some u, since := s.hub.ptime.toNat } with stallTaken := true })
    (ok (.ldf d ab pi i) → full = true →
      exec (.ldf g d ab pi i) s = .next (s.issuedWrites ⟨g, .a (.ldf d ab pi i)⟩ (inc ++ [result]))) ∧
    (ok (.ldfe d ab pi i) → full = true →
      exec (.ldfe g d ab pi i) s = .next (s.issued ⟨g, .a (.ldfe d ab pi i)⟩
        { s.blank with pends := inc ++ [result], full := removeNat (ea / 4) s.here.full })) ∧
    (ok (.ste d ab pi i) → full = false →
      exec (.ste g d ab pi i) s = .next (s.issued ⟨g, .a (.ste d ab pi i)⟩
        { s.blank with pends := inc, spad := writeLE s.here.spad ea 4 (s.sreg d).toNat, full := insertNat (ea / 4) s.here.full })) ∧
    (ok (.feemp ab pi i) →
      exec (.feemp g ab pi i) s = .next (s.issued ⟨g, .a (.feemp ab pi i)⟩ { s.blank with pends := inc, full := removeNat (ea / 4) s.here.full })) ∧
    (ok (.waita d ab pi i) → full = true → least ≤ word →
      exec (.waita g d ab pi i) s = .next (s.issuedWrites ⟨g, .a (.waita d ab pi i)⟩ inc)) ∧
    (full = false → waits (.ldf d ab pi i) (.full (ea / 4)) ∧ waits (.ldfe d ab pi i) (.full (ea / 4))) ∧
    (full = true → waits (.ste d ab pi i) (.empty (ea / 4))) ∧
    ((full && decide (least ≤ word)) = false → waits (.waita d ab pi i) (.atLeast (ea / 4) least))

/-- 04_control_scalar.md R127: an atomic on the scratchpad of an engine core is one step, and delivers the old value. -/
def Obligations.ScratchpadAtomics : Prop :=
  ∀ (s : State) (g : Guard) (o : AddressOp) (op : Amo) (d : Fin 32) (a : Fin 16) (b : Fin 32) (w : Nat),
    atomicForm o = some (op, d, a, b, w) → isTaproot s.cur.2 = false → s.ready ⟨g, .a o⟩ = true →
    s.spadOk ⟨g, .a o⟩ true true (s.areg a) w = true →
    let ea := (s.areg a).toNat
    let old := readLE s.here.spad ea w
    exec (Slot.instr ⟨g, .a o⟩) s = .next (s.issued ⟨g, .a o⟩ { s.blank with
      spad := writeLE s.here.spad ea w (op.eval w old (s.sreg b).toNat (s.sreg d).toNat)
      pends := [s.write 2 4 (.s d) (BitVec.ofNat 64 (sx64 (8 * w) old)).toNat (some 3)] })

/-- 14_package.md R369: an atomic of a Taproot core is one step at the home of its word. The word lies in memory that nothing of this core
holds, and the step delivers the old value four cycles later. That the step is taken in the issue cycle is the model's reading (DEDUCED,
log 12): the rule gives no cycle for it. -/
def Obligations.HomeAtomics : Prop :=
  ∀ (s : State) (g : Guard) (o : AddressOp) (op : Amo) (d : Fin 32) (a : Fin 16) (b : Fin 32) (w : Nat) (xl : Xlate),
    atomicForm o = some (op, d, a, b, w) → isTaproot s.cur.2 = true → s.ready ⟨g, .a o⟩ = true →
    canonical (s.areg a) = true → (s.areg a).toNat % w = 0 → s.translate (s.who s.cur.1 s.cur.2) .atomic (s.areg a) = (.ok xl, s) →
    s.globalOk ⟨g, .a o⟩ .atomic (s.areg a) w false xl .mem → s.homePoison s.cur.1 s.cur.2 xl.pa = false →
    bits xl.pa 45 44 = 0 → s.cacheable xl.pa = true → s.holdsAtomic s.cur.1 s.cur.2 (rangeOf xl.pa w) = false →
    let act (s : State) : Nat × State := (s.expose s.cur.1 s.cur.2 xl.pa).amoHome xl.pa op w (s.sreg b).toNat (s.sreg d).toNat
    ∃ t, exec (Slot.instr ⟨g, .a o⟩) s = .next t ∧ t.here.pend = s.here.pend.filter (fun w => decide (s.here.now + 1 < w.land)) ++
      [s.write 2 4 (.s d) (BitVec.ofNat 64 (sx64 (8 * w) (act s).1)).toNat (some 3)] ∧
      (∀ n, sget t.mem n = sget (act s).2.mem n)

/-- 04_control_scalar.md R130 to R132: QMARK, L1FL and L1INV enter the pipeline; at `.c` the latter two do nothing. The line forms enter it for
a cached line. They do nothing at an address that is not canonical, that cannot be translated or that is refused (R132), nor at a fabric address
(15_fabric.md R406) or another that is not cached: no trap is taken and nothing enters the pipeline. That a refusal is logged all the same
(12_die.md R339) is the model's reading (DEDUCED, log 37). -/
def Obligations.OrderForms : Prop :=
  ∀ (s : State) (g : Guard) (sc : Scope) (ab : Fin 16) (i : BitVec 11) (xl : Xlate) (p : Place),
    let go (o : AddressOp) (l : List MemKind) : Prop := s.ready ⟨g, .a o⟩ = true →
      exec (Slot.instr ⟨g, .a o⟩) s = .next (s.issued ⟨g, .a o⟩ { s.blank with memq := l.map (s.entry 2) })
    let ea := s.areg ab + i.signExtend 64
    go .qmark [.mark] ∧ go (.l1fl sc) (if sc = .c then [] else [.flush sc false]) ∧
    go (.l1inv sc) (if sc = .c then [] else [.flush sc true]) ∧
    (canonical ea = false → go (.l1fll ab i) [] ∧ go (.l1invl ab i) [] ∧ go (.ldpf ab i) []) ∧
    (canonical ea = true → s.locate (s.who s.cur.1 s.cur.2) .read ea 1 = (.ok (xl, p), s) → s.cacheable xl.pa = true →
      go (.l1fll ab i) [.flushLine xl.pa false] ∧ go (.l1invl ab i) [.flushLine xl.pa true] ∧ go (.ldpf ab i) [.prefetch xl.pa]) ∧
    (canonical ea = true → s.locate (s.who s.cur.1 s.cur.2) .read ea 1 = (.ok (xl, p), s) → s.isFabric xl.pa = true ∨ s.cacheable xl.pa = false →
      go (.l1fll ab i) [] ∧ go (.l1invl ab i) [] ∧ go (.ldpf ab i) []) ∧
    (canonical ea = true → ∀ e t, s.locate (s.who s.cur.1 s.cur.2) .read ea 1 = (.error e, t) → e ≠ .late →
      t.cur = s.cur → t.calm = true → t.here.noneOwed = true →
      ∀ o ∈ [AddressOp.l1fll ab i, .l1invl ab i, .ldpf ab i], s.ready ⟨g, .a o⟩ = true →
        exec (Slot.instr ⟨g, .a o⟩) s = .next (e.refusals.foldl State.logRefused (s.issued ⟨g, .a o⟩ { s.blank with st := t })))

/-- 04_control_scalar.md R107 to R110: a shape request outside handler mode grants each dimension, and delivers the grant to shD and sB; a
vector grant sets VL when it lands. -/
def Obligations.ShapeGrants : Prop :=
  ∀ (s : State) (g : Guard) (d : Fin 4) (o : ControlOp) (out : Fin 32) (req : Nat),
    ((∃ a, o = .shape d a out ∧ req = (s.sreg a).toNat) ∨ (∃ imm : BitVec 32, o = .shapex d out imm ∧ req = imm.toNat)) →
    s.ready ⟨g, .c o⟩ = true → s.here.handler = false → shapeBad req = false →
    let v := grantOf (s.maxima s.cur.1 s.cur.2.val) req
    exec (Slot.instr ⟨g, .c o⟩) s = .next (s.issuedWrites ⟨g, .c o⟩
      [s.write 0 1 (.sh d) v none, s.write 0 1 (.s out) v none]) ∧
    (s.quiet = true → ∃ t, exec (Slot.instr ⟨g, .c o⟩) s = .next t ∧ t.here.regs.sh[d] = BitVec.ofNat 64 v ∧ t.sreg out = BitVec.ofNat 64 v ∧
      t.here.regs.vl = (if shKind v = 0 then v else s.here.regs.vl) ∧ (∀ n, n ≠ out → t.sreg n = s.sreg n) ∧
      (∀ n, n ≠ d → t.here.regs.sh[n] = s.here.regs.sh[n]) ∧ t.here.regs.v = s.here.regs.v ∧ t.here.regs.a = s.here.regs.a)

/-- 04_control_scalar.md R113; 09_core_traps.md R278, Table 9-11; 14_package.md R372, Table 14-4: CSR reads and writes where the mode allows them.
CSRRD delivers the value the table gives the number. A write lands at the next cycle: the core then holds what the table makes of it, nothing
else of the device has changed, and a later read gives the writable fields of the value (TSTAT, TRIP and TRCYC go their own ways). -/
def Obligations.CsrAccess : Prop :=
  ∀ (s : State) (g : Guard) (a : Fin 32) (n : BitVec 11),
    let old := csrRead s n.toNat
    let set (o : ControlOp) (v : W64) : Prop := s.ready ⟨g, .c o⟩ = true → s.csrAllowed n.toNat true = true →
      exec (Slot.instr ⟨g, .c o⟩) s = .next (s.issuedWrites ⟨g, .c o⟩ [s.write 0 1 (.csr n.toNat) v.toNat none]) ∧
      (s.quiet = true →
        let t := s.setCore s.cur.1 s.cur.2 (csrLanded (s.wentOn ⟨g, .c o⟩ s.here.regs []) n.toNat v)
        exec (Slot.instr ⟨g, .c o⟩) s = .next t ∧ (n ≠ 0x001 → n ≠ 0x407 → n ≠ 0x40A → csrRead t n.toNat = csrKept s n.toNat v))
    (s.ready ⟨g, .c (.csrrd a n)⟩ = true → s.csrAllowed n.toNat false = true →
      exec (.csrrd g a n) s = .next (s.issuedWrites ⟨g, .c (.csrrd a n)⟩ [s.write 0 1 (.s a) old.toNat none])) ∧
    set (.csrwr a n) (s.sreg a) ∧ set (.csrset a n) (old ||| s.sreg a) ∧ set (.csrclr a n) (old &&& ~~~(s.sreg a))

/-- 04_control_scalar.md R102 to R104; 08_core_memory.md R226: HALT, DELAY, BTOK and QFENCE. Behind HALT the core is halted at the bundle's
address; DELAY n lets n idle cycles pass before the next bundle issues. -/
def Obligations.SequencerForms : Prop :=
  ∀ (s : State) (g : Guard) (n : BitVec 16) (d : Fin 8) (e : Eng) (m : BitVec 5),
    let x (o : ControlOp) : Slot := ⟨g, .c o⟩
    let eng := s.here.eng
    (s.ready (x .halt) = true → exec (.halt g) s = .next (s.issued (x .halt) { s.blank with halt := true }) ∧
      ∀ t, exec (.halt g) s = .next t → t.here.run = .halted ∧ t.here.haltAddr = s.here.pc) ∧
    (s.ready (x (.delay n)) = true → exec (.delay g n) s = .next (s.issued (x (.delay n)) { s.blank with delay := n.toNat })) ∧
    (s.ready (x (.delay n)) = true → s.here.pend = [] → s.here.srb.length ≤ 48 → s.here.waitc = none →
      (slotRefusal (s.here.profile s.cur.2) ⟨.always, .c .cnop⟩).isNone = true → s.here.addrBreak = none →
      (∀ (i : Fin 4), (s.here.csr.bpCtl[i]).getLsbD 0 = false) →
      ∃ t u, exec (.delay g n) s = .next t ∧ t.here.now = s.here.now + 1 ∧ exec .cnop t = .next u ∧ u.here.now = s.here.now + 2 + n.toNat ∧
        u.here.regs = s.here.regs) ∧
    (s.ready (x (.btok d e)) = true →
      exec (.btok g d e) s = .next (s.issued (x (.btok d e)) { s.blank with eng := { eng with
        win := eng.win.set (engIdx e) (eng.win[engIdx e] + 1)
        btoks := [⟨d, s.here.regs.b[d], e, eng.win[engIdx e], s.here.bseq, s.here.now, s.here.handler⟩] } })) ∧
    (s.ready (x (.qfence m)) = true →
      exec (.qfence g m) s = .next (if m = 0 then s.issuedWrites (x (.qfence m)) [] else s.issued (x (.qfence m)) { s.blank with eng := { eng with
        fences := eng.fences.filter s.here.fenceLive ++
          [⟨m.toNat, s.here.bseq, s.here.now, s.here.handler, eng.commandsOf m.toNat⟩] } }))

/-- 08_core_memory.md R219, R221 to R223: the ring instructions, each where it neither traps nor waits. -/
def Obligations.RingForms : Prop :=
  ∀ (s : State) (g : Guard) (o : ControlOp) (d : Fin 16) (r : Ring) (e : Engines),
    ringEffect s o = some (d, r, e) → s.ready ⟨g, .c o⟩ = true →
    exec (Slot.instr ⟨g, .c o⟩) s = .next (s.issued ⟨g, .c o⟩ { s.blank with rings := s.here.rings.set d r, eng := e })

/-- 08_core_memory.md R224: HCOMMIT of n entries of a window ring that are pushed: C advances, T and A fall back to it, and what later
entries hold is discarded: producers, marks, finished entries, the open tile, and the VTBLD rows on their way for them (R227). -/
def Obligations.RingCommit : Prop :=
  ∀ (s : State) (g : Guard) (d : Fin 16) (a : Fin 32),
    let x : Slot := ⟨g, .c (.hcommit d a)⟩
    let r := s.here.rings[d]
    let n := (s.sreg a).toNat
    let c := r.c + BitVec.ofNat 32 n
    let gone (e : BitVec 32) : Bool := decide ((e - c).toNat < (r.a - c).toNat)
    s.ready x = true → r.init = true → r.win = true → n ≤ (r.a - r.c).toNat → n ≤ (r.t - r.c).toNat →
    exec (.hcommit g d a) s = .next (s.issued x { s.blank with
      rings := s.here.rings.set d { r with
        c := c, t := c, a := c, marks := r.marks.filter fun e => !gone e, done := r.done.filter fun e => !gone e
        openT := r.openT.filter fun t => !gone t.1 }
      eng := s.here.eng.stopProducers d r gone
      stale := fun w => w.dst == .vtbld d && (w.vt.any fun t => gone (BitVec.ofNat 32 t.entry)) })

/-- 08_core_memory.md R218, R219, R221 to R224, R241: H ≤ C ≤ T ≤ A and T ≤ H + NSLOT. The ring instructions, each where it neither traps nor
waits, keep every ring in that order; so do the assignment of an entry, an entry that becomes finished, and a YPUSH of marked entries. -/
def Obligations.RingOrder : Prop :=
  (∀ (s : State) (g : Guard) (o : ControlOp), s.ready ⟨g, .c o⟩ = true → s.quiet = true → (∀ h : Fin 16, (s.here.rings[h]).ordered) →
    ((∃ d r e, ringEffect s o = some (d, r, e)) ∨
      ∃ d a, o = .hcommit d a ∧ (s.here.rings[d]).init = true ∧ (s.here.rings[d]).win = true ∧
        (s.sreg a).toNat ≤ ((s.here.rings[d]).a - (s.here.rings[d]).c).toNat ∧
        (s.sreg a).toNat ≤ ((s.here.rings[d]).t - (s.here.rings[d]).c).toNat) →
    ∃ t, exec (Slot.instr ⟨g, .c o⟩) s = .next t ∧ ∀ h : Fin 16, (t.here.rings[h]).ordered) ∧
  ∀ (r : Ring) (e : BitVec 32) (n : Nat), r.ordered →
    ((r.a - r.h).toNat + 1 < 2 ^ 32 → ({ r with a := r.a + 1 } : Ring).ordered) ∧
    ((r.t - r.h).toNat ≤ (e - r.h).toNat → (e - r.h).toNat < (r.a - r.h).toNat → (e - r.h).toNat < r.nslot → e ∉ r.marks →
      (r.finish e).ordered) ∧
    ∀ q, r.pushMarked n = some q → q.ordered

/-- 01_bundles.md R42, R43; 09_core_traps.md R252: a slot that faults by its operands, mode or rings does not issue. The trap of its bundle is
taken at the boundary before it, with the slot's cause and SLOTMASK. -/
def Obligations.SlotTraps : Prop :=
  ∀ (s : State) (x : Slot) (f : SlotFault), slotFault s x.op = some f → s.ready x = true →
    exec x.instr s = .next (s.takeTrap s.cur.1 s.cur.2
      { cause := f.cause, mask := 2 ^ x.op.slot.val, faddr := f.faddr, bad := f.bad, info := f.info } true)

/-- The causes that a slot raises by what lies behind its operands. 04_control_scalar.md Table 4-10, 12_die.md R329, R331, R339, 15_fabric.md R406: a
global access that does not translate gives DATA_FAULT with the status, one that the tables refuse ACCESS with the physical address, one whose
walk is under way waits, one to a fabric address from an engine core gives 0x0C, and a read of a poisoned line 0x09 (10_cluster.md R300).
05_vector.md R165, R168: a vector access faults at the first lane or element that fails. 05_vector.md R155: VTBLD raises the first check of Table 5-9
that fails. 08_core_memory.md R232: the copy instructions apply Table 8-5 to their block, YLDV rows 1 and 2. Of these clauses the following are the
model's reading: FADDR of a misaligned vector access is its effective address (DEDUCED, log 36); poison is met at issue, where the access reads
(DEDUCED, log 38); the kind, object and agent of the wait for a walk (DEDUCED, log 33); the die that logs a refusal (DEDUCED, log 9). -/
def Obligations.AccessFaults : Prop :=
  ∀ (s : State) (x : Slot), s.ready x = true →
    let k := s.here
    let who := s.who s.cur.1 s.cur.2
    let e := s.envFor x
    let trap (t : State) (f : SlotFault) : State := t.takeTrap s.cur.1 s.cur.2
      { cause := f.cause, mask := 2 ^ x.op.slot.val, status := f.status, faddr := f.faddr, bad := f.bad, info := f.info } true
    let faults (t : State) (f : SlotFault) : Prop := exec x.instr s = .next (trap t f)
    let at0 (c : Cause) (st : Nat) (va : W64) : SlotFault := { cause := c, status := st, faddr := va.toNat, bad := va.toNat }
    (∀ o w ea kind, x.op = .a o →
      ((∃ fmt d ab pi i, globalLoad o = some (w, fmt, d, ab, pi, i) ∧ ea = s.gmemEa ab pi i ∧ kind = AccKind.read) ∨
        (∃ d ab pi i, globalStore o = some (w, d, ab, pi, i) ∧ ea = s.gmemEa ab pi i ∧ kind = .write) ∨
        ∃ st d ab sc i, orderedForm o = some (st, w, d, ab, sc, i) ∧ ea = s.areg ab + i.signExtend 64 ∧ kind = if st then .write else .read) →
      canonical ea = true → ea.toNat % w = 0 →
      (∀ st t, s.locate who kind ea w = (.error (.reason st), t) → faults t (at0 .dataFault (st % 256) ea)) ∧
      (∀ r t, s.locate who kind ea w = (.error (.refused r), t) →
        let u := trap t { at0 .access 0x06 ea with bad := r.pa }
        exec x.instr s = .next (if (u.core s.cur.1 s.cur.2).waitc.isSome then u else u.logRefused r)) ∧
      (∀ t, s.locate who kind ea w = (.error .late, t) → exec x.instr s = .next (t.modCore s.cur.1 s.cur.2 fun k =>
        k.wait { kind := 7, object := ea.toNat % 2 ^ 32, agent := agentMem, slot := 2 })) ∧
      (∀ xl t, s.locate who kind ea w = (.ok (xl, .fabric), t) → isTaproot s.cur.2 = false → faults t (at0 .dataFault 0x0C ea)) ∧
      (∀ xl t, s.locate who kind ea w = (.ok (xl, .mem), t) → (globalLoad o).isSome = true → t.meetsPoison s.cur.1 s.cur.2 xl.pa = true →
        faults t (at0 .dataFault 0x09 ea))) ∧
    (∀ u o vd ab sp pi i, x.op = .v u o → vectorMem o = some (vd, ab, sp, pi, i) →
      let ea := s.vmemEa ab pi i
      let lanes := vectorLanes e o
      let byte (l : Nat) : W64 := ea + BitVec.ofNat 64 l
      let kind : AccKind := match o with | .vst _ _ _ _ _ => .write | .vstnt _ _ _ _ _ => .write | _ => .read
      (sp = true → ∀ l, lanes.find? (fun l => decide (0x80000 ≤ ea.toNat + l)) = some l → faults s (at0 .dataFault 0 (byte l))) ∧
      (sp = true → (∀ l ∈ lanes, ea.toNat + l < 0x80000) → ea.toNat % 4 ≠ 0 → faults s (at0 .align 0 ea)) ∧
      (sp = false → (∀ l ∈ lanes, canonical (byte l) = true) → ea.toNat % 4 ≠ 0 → faults s (at0 .align 0 ea)) ∧
      (sp = false → ∀ l m, lanes = l :: m → canonical (byte l) = false → faults s (at0 .dataFault 0 (byte l))) ∧
      (sp = false → ea.toNat % 4 = 0 → ∀ l m st t, lanes = l :: m → canonical (byte l) = true →
        s.locate who kind (byte l) 1 = (.error (.reason st), t) → faults t (at0 .dataFault (st % 256) (byte l)))) ∧
    (∀ u o vd ab sp vi w l i m f, x.op = .v u o → gatherForm o = some (vd, ab, sp, vi, w) → e.lanesOn (8 * w) = l ++ i :: m →
      let ea := e.vgatEa ab vi w
      (sp = true → (∀ j ∈ l, spadFault (ea j) w = none) → spadFault (ea i) w = some f → faults s f) ∧
      (sp = false → l = [] → globalFault (ea i) w = some f → faults s f)) ∧
    (∀ u h va vb c, x.op = .v u (.vtbld h va vb) →
      let ctl := k.readV vb 8
      let row := elemAt ctl 16 0
      let ng := elemAt ctl 16 1
      let first := ctl.testBit 32
      let acts := mergeLanes 8 256 0 (e.src va 8) (laneMask 8 (e.on 8))
      let cfg := k.regs.cbCfg.toNat
      let r := k.rings[h]
      let table : List (Bool × Cause) := [
        (!r.init, .ringMisuse), (decide (row > 15 ∨ ng = 0 ∨ ng > 256 ∨ cbG cfg * ng > 256), .ringMisuse),
        (first == r.openT.isSome, .ringMisuse), (!first && r.openT.any fun t => t.2.1 != ng, .ringMisuse),
        (decide (48 + (row + 1) * tableRowBytes cfg ng > r.slotBytes), .ringMisuse), (!cbValid cfg, .codebook),
        (!first && r.openT.any fun t => t.2.2 != k.regs.cbGen.toNat, .codebook),
        (cbHalve cfg && !cbSymmetric cfg k.regs.cbVals, .codebook),
        ((tableRow cfg k.regs.cbVals acts ng).any fun x => decide (x.2 < -32768 ∨ 32767 < x.2), .codebook)]
      (table.find? fun y => y.1).map (·.2) = some c → faults s { cause := c }) ∧
    (∀ u o f, x.op = .y u o → copyForm o = some f → (s.areg f.ab).toNat + 64 ≤ 0x80000 → (s.areg f.ab).toNat % 64 = 0 →
      k.eng.lockOn (rangeOf (s.areg f.ab).toNat 64) = none →
      let b := s.blockAt f.ab
      let h : Fin 16 := Fin.ofNat 16 (blkHandle b)
      let r := k.rings[h]
      let cpl := blkCplEn b && blkCplOff b % 8 != 0
      (cpl = true → faults s (at0 .dataFault 0 (BitVec.ofNat 64 (blkCplOff b)))) ∧
      (cpl = false → f.kind.usesRing b = true → r.init = false → faults s { cause := .ringMisuse }) ∧
      (cpl = false → f.kind.usesRing b = true → r.init = true → blkHandle b / 16 ≠ r.gen.toNat →
        faults s { cause := .staleHandle, info := blkHandle b + 2 ^ 16 * (16 * r.gen.toNat + h.val) })) ∧
    (∀ u ab pi vd, x.op = .y u (.yldv ab pi vd) →
      ((s.areg ab).toNat + 256 > 0x80000 → faults s (at0 .dataFault 0 (s.areg ab))) ∧
      ((s.areg ab).toNat + 256 ≤ 0x80000 → (s.areg ab).toNat % 4 ≠ 0 → faults s (at0 .align 0 (s.areg ab))))

/-- 09_core_traps.md R256, R258: TRAP, BRK and SCALL issue, and their cause is taken at the boundary behind them, with AFTER set and ARG = n, once
the cycles before the next bundle have passed as far as its head word can be read; while the translation of that word has not come, the cause
is due. One that finds its trap waiting, as for loads that it must wait for (R260), stays due too (DEDUCED, log 34, the model's reading). -/
def Obligations.AfterCauses : Prop :=
  ∀ (s : State) (g : Guard) (n : BitVec 16) (o : ControlOp) (cause : Cause) (toTaproot : Bool) (u : State),
    (o, cause, toTaproot) ∈ [(.trap n, .syscall, false), (.brk n, .break, false), (.scall n, .syscall, true)] →
    s.ready ⟨g, .c o⟩ = true →
    let t := s.issuedWrites ⟨g, .c o⟩ []
    let due : Owed := ⟨cause, n.toNat, toTaproot, s.here.pc, s.here.now, true⟩
    (∀ counted, t.settleNext s.cur.1 s.cur.2 = (u, some counted) →
      exec (Slot.instr ⟨g, .c o⟩) s = .next ((u.takeTrap s.cur.1 s.cur.2
        { cause := cause, after := true, arg := n.toNat, caddr := s.here.pc, cscyc := s.here.now, toTaproot := toTaproot } counted).modCore
          s.cur.1 s.cur.2 fun k => { k with owed := if k.waitc.isSome then some due else none })) ∧
    (t.settleNext s.cur.1 s.cur.2 = (u, none) →
      exec (Slot.instr ⟨g, .c o⟩) s = .next (u.modCore s.cur.1 s.cur.2 fun k => { k with owed := some due }))

/-- 09_core_traps.md R253, R255 to R257, R260; 14_package.md R372: what taking a trap writes. On an engine core whose handler takes the cause:
the frame at TFRAME, TEPC, the writes on their way set aside, handler mode, handler cycle 0, pc at TVEC. On a Taproot core: TREPC, TRCAUSE,
TRBAD, the mode and interrupt enable saved, supervisor mode, interrupts off, pc at TRVEC, and the writes on their way set aside with their
offsets until SRET (01_bundles.md R44; DEDUCED, log 75). Else the thread's context is saved and its record
becomes TRAPPED, or READY for PREEMPT. A save writes the thread's context at its save area, at the offsets of Tables 9-5 and 9-6 (R262 to R265), leaves every
byte outside the area, and frees the core; a restore of the record on any core of the die gives the thread its registers, rings, queues,
pending writes and scratchpad back (R266). The two clauses on a save are of a core with nothing left to take home. -/
def Obligations.TrapEntry : Prop :=
  ∀ (s : State) (d : Fin 4) (c : Fin 68) (t : Trap) (counted : Bool),
    let k := s.core d c
    (isTaproot c = true → s.takeTrap d c t counted = s.setCore d c { k with
      tap := { k.tap with epc := k.pc, cause := BitVec.ofNat 64 t.cause.code, bad := BitVec.ofNat 64 t.bad, psm := k.tap.sm, pie := k.tap.ie,
                          ie := false, sm := true
                          saved := ⟨k.pend.map fun w => { w with land := w.land - k.now }, k.held, counted, k.now⟩ :: k.tap.saved }
      pend := [], held := [], pc := k.tap.vec, delay := 0, stallTaken := false, answers := [], waitc := none }) ∧
    (isTaproot c = false → (k.memq.all fun m => m.kind.dst.isNone) = true → k.handlerTakes t = true →
      let f : Nat := (⟨t.cause.code, t.mask, t.eng + (if t.async then 8 else 0) + (if t.after then 16 else 0) + (if t.more then 64 else 0) +
          (if t.lostErr then 128 else 0), t.status, t.arg, k.pc, k.cyc, t.faddr, t.caddr, t.cscyc, t.snap, t.tile,
        k.pend.length + k.srb.length + k.held.length + k.eng.btoks.length, t.info⟩ : Frame).value
      s.takeTrap d c t counted = s.setCore d c { k.setSpad (writeLE k.spad k.csr.tframe.toNat 64 f) with
        frame := f
        owed := none
        csr := { k.csr with tepc := k.pc }, srb := k.pend, pend := [], handler := true, hcyc := 0, pc := k.csr.tvec, delay := 0
        stallTaken := false, resumeTaken := counted, answers := [], waitc := none }) ∧
    (isTaproot c = false → (k.memq.all fun m => m.kind.dst.isNone) = true → k.handlerTakes t = false → ∀ r,
      (s.setCore d c { k with stallTaken := counted, resumeTaken := if k.handler then k.resumeTaken else counted, delay := 0 }).saveContext
        d c (if t.cause = .preempt then .ready else .trapped) (if t.cause = .preempt then 1 else 2)
        (t.frame { k with stallTaken := counted, resumeTaken := if k.handler then k.resumeTaken else counted, delay := 0 }) = some r →
      s.takeTrap d c t counted = r) ∧
    (∀ st state f r, isTaproot c = false → s.saveReady d c → k.fitsArea → s.saveContext d c st state f = some r →
      let area (off n : Nat) : Nat := readLE r.mem (k.thr.csa + off) n
      area 0x00 4 = 1 ∧ area 0x05 1 = state % 256 ∧ area 0x08 8 = k.pc.toNat ∧ area 0x10 8 = k.now % 2 ^ 48 ∧ area 0x18 2 = k.regs.vl % 2 ^ 16 ∧
      area 0x1A 2 = k.records ∧ area 0x1C 1 = k.eng.mq.length ∧ area 0x1D 1 = (k.eng.yq[0]).length ∧ area 0x1E 1 = (k.eng.yq[1]).length ∧
      (∀ n : Fin 32, area (0x200 + 8 * n.val) 8 = (k.regs.s[n]).toNat) ∧ (∀ n : Fin 16, area (0x300 + 8 * n.val) 8 = (k.regs.a[n]).toNat) ∧
      (∀ n : Fin 8, area (0x380 + 8 * n.val) 8 = (k.regs.b[n]).toNat ∧ area (0x400 + 32 * n.val) 32 = (k.regs.p[n]).toNat) ∧
      (∀ h : Fin 16, let g := k.rings[h]
        area (0x502 + 64 * h.val) 2 = g.gen.toNat ∧ area (0x508 + 64 * h.val) 8 = g.desc.toNat ∧ area (0x510 + 64 * h.val) 4 = g.h.toNat ∧
        area (0x514 + 64 * h.val) 4 = g.c.toNat ∧ area (0x518 + 64 * h.val) 4 = g.t.toNat ∧ area (0x51C + 64 * h.val) 4 = g.a.toNat) ∧
      (∀ n : Fin 32, area (0x7000 + 256 * n.val) 256 = (k.regs.v[n]).toNat) ∧ (∀ a, a < 0x80000 → area (0x80000 + a) 1 = (sget k.spad a).toNat) ∧
      (∀ b, b < k.thr.csa ∨ k.thr.csa + 0x100000 ≤ b → sget r.mem b = sget s.mem b) ∧
      (r.core d c).run = .idle ∧ ((r.die d).recd k.thr.idx).st = st) ∧
    ∀ (e : Fin 68) st state f r, isTaproot c = false → s.saveReady d c → k.fitsArea → s.saveContext d c st state f = some r →
      r.recCsa d k.thr.idx = k.thr.csa → k.handler = false → k.held = [] → (∀ y : Fin 2, k.eng.spill[y] = []) → k.now < 2 ^ 48 →
      1 ≤ k.regs.vl → k.regs.vl ≤ 256 → k.regs.p[(0 : Fin 8)] = BitVec.allOnes 256 →
      let u := (r.restoreThread d e k.thr.idx).core d e
      u.run = .running ∧ u.handler = false ∧ u.pc = k.pc ∧ u.now = k.now ∧ u.regs = k.regs ∧ u.spad = k.spad ∧
      (∀ h : Fin 16, let g := u.rings[h]
        let x := k.rings[h]
        g.init = x.init ∧ g.gen = x.gen ∧ g.desc = x.desc ∧ g.h = x.h ∧ g.c = x.c ∧ g.t = x.t ∧ g.a = x.a) ∧
      u.eng.mq.map (fun m => (m.id, m.baddr)) = k.eng.mq.map (fun m => (m.id, m.baddr)) ∧
      (∀ y : Fin 2, (u.eng.yq[y]).map (fun m => (m.id, m.blk)) = (k.eng.yq[y]).map fun m => (m.id, m.blk % 2 ^ 512)) ∧
      u.pend.map (fun w => (w.land - u.now, w.slot)) = k.pend.map (fun w => ((w.land - k.now) % 2 ^ 16, w.slot % 2 ^ 8))

/-- 09_core_traps.md R259, R261: RFT with no handler write on its way returns to thread mode at TEPC and the cycle of the frame: the writes
set aside are on their way again, SKIPBP is 1, TCTL.SS has become the step of one bundle. No register and no byte of memory changes. -/
def Obligations.HandlerReturn : Prop :=
  ∀ (s : State) (g : Guard), s.ready ⟨g, .c .rft⟩ = true → isTaproot s.cur.2 = false → s.here.handler = true → s.here.pend = [] →
    s.here.waitc = none →
    ∃ t, exec (.rft g) s = .next t ∧ t.here.handler = false ∧ t.here.pc = s.here.csr.tepc ∧ t.here.cyc = s.here.cyc ∧
      t.here.pend = s.here.srb ∧ t.here.srb = [] ∧ t.here.skipBp = true ∧ t.here.stepOnce = s.here.csr.tctl ∧
      t.here.csr = { s.here.csr with tctl := false } ∧ t.here.stallTaken = s.here.resumeTaken ∧ t.here.regs = s.here.regs ∧
      t.here.spad = s.here.spad ∧ t.here.rings = s.here.rings ∧ t.mem = s.mem ∧
      (∀ d c, (d, c) ≠ s.cur → t.core d c = s.core d c)

/-- 14_package.md R371: SRET in supervisor mode restores the mode and the interrupt enable and continues at TREPC, the writes that the latest
trap set aside on their way again with their offsets (01_bundles.md R44; DEDUCED, log 75); WFI issues when an enabled
interrupt is pending and waits otherwise; TBWAIT reads a barrier word at its home, passes on a phase other than bit 0 of sD or an idle word,
delivers the phase to sD, and acquires at `.p`; on another word it waits, as it does for what its thread has to perform first (11_ordering.md
R305, R313). Of a wait that is counted, the object, the agent and the number of cycles are the model's reading (DEDUCED, log 33). -/
def Obligations.SupervisorForms : Prop :=
  ∀ (s : State) (g : Guard) (d a : Fin 32) (xl : Xlate) (p : Place),
    let x (o : ControlOp) : Slot := ⟨g, .c o⟩
    let tap := s.here.tap
    let back : TapSaved := tap.saved.headD ⟨[], [], false, 0⟩
    (s.ready (x .sret) = true → isTaproot s.cur.2 = true → s.quiet = true → tap.sm = true → exec (.sret g) s =
      .next (s.setCore s.cur.1 s.cur.2
        { s.wentOn (x .sret) s.here.regs (back.writes.map fun w => { w with land := s.here.now + 1 + w.land }) with
          tap := { tap with sm := tap.psm, ie := tap.pie, saved := tap.saved.tail }
          held := back.held, pc := tap.epc, delay := 0, stallTaken := back.counted })) ∧
    (s.ready (x .wfi) = true → tap.sm = true → s.trip s.cur.1 s.cur.2 &&& tap.irqEn.toNat ≠ 0 →
      exec (.wfi g) s = .next (s.issuedWrites (x .wfi) [])) ∧
    (s.ready (x .wfi) = true → tap.sm = true → s.trip s.cur.1 s.cur.2 &&& tap.irqEn.toNat = 0 →
      exec (.wfi g) s = .next (s.setCore s.cur.1 s.cur.2 { s.here.wait
        { kind := 8, object := 0, agent := agentUnknown, since := s.hub.ptime.toNat } with stallTaken := true })) ∧
    (s.ready (x (.tbwait d a)) = true → s.homeOk (s.sreg a) xl p →
      let r := s.atHome s.cur.1 s.cur.2 xl.pa 8
      let passes := (s.here.aheadOf (rangeOf xl.pa 8) || r.2.relOwed s.cur.1 s.cur.2) = false ∧ (r.1.testBit 0 ≠ (s.sreg d).getLsbD 0 ∨ bits r.1 63 48 = 0)
      (passes → exec (.tbwait g d a) s = .next ((s.issued (x (.tbwait d a)) { s.blank with
        st := r.2, pends := [s.write 0 1 (.s d) (if r.1.testBit 0 then 1 else 0) none] }).acquireLines s.cur.1 s.cur.2 .p)) ∧
      (¬ passes → exec (.tbwait g d a) s = .next (r.2.modCore s.cur.1 s.cur.2 fun k => { k.wait
        { kind := 8, object := xl.pa, agent := agentUnknown, since := r.2.hub.ptime.toNat } with stallTaken := true })))

/-- 10_cluster.md R287 to R292, R295, R296; 14_package.md R370: the barrier forms. BARINIT, BARARV and BARREM enter the memory pipeline,
releases with the commands that earlier QFENCEs have joined; a BARWAIT on a word whose phase has come consumes it in one step and acquires,
and waits on another; GJOIN and GLEAVE change the membership of a set at the slice, and wait while its answer has not come. A full set, or one
that has the thread as a member, refuses a GJOIN with LAUNCH (R295). That the slice's step is taken in the issue cycle where its answer is not
late, and that the wait for a late one names the set, is the model's reading (DEDUCED, logs 32 and 33). -/
def Obligations.BarrierForms : Prop :=
  ∀ (s : State) (g : Guard) (a : Fin 32) (n : BitVec 11) (sc : Scope) (xl : Xlate) (p : Place),
    let x (o : ControlOp) : Slot := ⟨g, .c o⟩
    let own := s.here.thr.barBase ≠ 0
    let v := (s.sreg a).toNat
    let joined := s.here.eng.joined
    let enters (o : ControlOp) (m : MemKind) : Prop :=
      exec (x o).instr s = .next (s.issued (x o) { s.blank with memq := [s.entry 0 m] })
    (s.ready (x (.barinit a n)) = true → own → s.barOk .atomic (s.ownBarVa n.toNat) xl p →
      enters (.barinit a n) (.arrive (.init (v % 2 ^ 16)) xl.pa .c [])) ∧
    (s.ready (x (.bararv sc n)) = true → own → s.barOk .atomic (s.ownBarVa n.toNat) xl p →
      enters (.bararv sc n) (.arrive .arrive xl.pa sc joined)) ∧
    (s.ready (x (.barrem a sc)) = true → v.testBit 63 = false → s.barOk .atomic (s.sreg a) xl p →
      enters (.barrem a sc) (.arrive .remAddr xl.pa sc joined)) ∧
    (s.ready (x (.barrem a sc)) = true → v.testBit 63 = true → isTaproot s.cur.2 = false → bits v 62 5 = 0 →
      enters (.barrem a sc) (.arrive (.remSet (bits v 4 0)) 0 sc joined)) ∧
    (s.ready (x (.barwait sc n)) = true → own → s.barOk .read (s.ownBarVa n.toNat) xl p →
      let r := s.atHome s.cur.1 s.cur.2 xl.pa 8
      let passes := (s.here.aheadOf (rangeOf xl.pa 8) || r.2.relOwed s.cur.1 s.cur.2) = false ∧ (r.1.testBit 0 ≠ r.1.testBit 1 ∨ bits r.1 63 48 = 0)
      (passes → exec (.barwait g sc n) s =
        .next (((s.issued (x (.barwait sc n)) { s.blank with st := r.2 }).stepWord xl.pa barConsume).acquireLines s.cur.1 s.cur.2 sc)) ∧
      (¬ passes → exec (.barwait g sc n) s = .next (r.2.modCore s.cur.1 s.cur.2 fun k => { k.wait
        { kind := 8, object := n.toNat, agent := agentUnknown, ends := some (.phase (xl.pa / 8 * 8)), since := r.2.hub.ptime.toNat } with
          stallTaken := true }))) ∧
    (s.ready (x (.gjoin a)) = true → own → s.late = false → bits v 15 5 = 0 → bits v 63 26 = 0 → s.barOk .atomic (s.ownBarVa (bits v 25 16)) xl p →
      let cl := clusterOf s.cur.2
      let l := s.sets s.cur.1 cl (bits v 4 0)
      let refused := 8 ≤ l.length ∨ (l.any fun m => m.die == s.cur.1 && m.idx == s.here.thr.idx) = true
      (¬ refused → exec (.gjoin g a) s = .next ((s.issuedWrites (x (.gjoin a)) []).setSets s.cur.1 cl (bits v 4 0)
        (l ++ [⟨s.cur.1, s.here.thr.idx, xl.pa, false⟩]))) ∧
      (refused → exec (.gjoin g a) s = .next (s.takeTrap s.cur.1 s.cur.2 { cause := .launch, mask := 1 } true))) ∧
    (s.ready (x (.gleave a)) = true → bits v 63 5 = 0 → s.late = false →
      exec (.gleave g a) s = .next (((s.issuedWrites (x (.gleave a)) []).setLeave s.cur.1 (clusterOf s.cur.2) (bits v 4 0) s.cur.1
        s.here.thr.idx).noteSet (.core s.cur.1 s.cur.2) (s.sets s.cur.1 (clusterOf s.cur.2) (bits v 4 0)))) ∧
    (s.late = true → ∀ o n, (o, n) ∈ [(.gjoin a, bits v 4 0), (.gleave a, bits v 4 0)] → s.ready (x o) = true →
      (o = .gjoin a → own ∧ bits v 15 5 = 0 ∧ bits v 63 26 = 0 ∧ s.barOk .atomic (s.ownBarVa (bits v 25 16)) xl p) →
      (o = .gleave a → bits v 63 5 = 0) →
      exec (x o).instr s = .next (s.setCore s.cur.1 s.cur.2 { s.here.wait
        { kind := 8, object := n, agent := agentUnknown, since := s.hub.ptime.toNat } with stallTaken := true }))

/-- 13_scheduling.md R347 to R350: LPATCH and LARM of a record that they may name enter the memory pipeline; an LPATCH of a
record that is not open to the thread raises LAUNCH; LWAIT on a word that reads 0 at its home issues and acquires at `.p`, and waits for another,
its record naming the low half of the address and, until a writer is known, agent 0xF000 (DEDUCED, log 33). Where no route to the
die of the record remains (14_package.md R365), LPATCH and LARM take DATA_FAULT with status 0x09; that FADDR then holds the record operand is the
model's choice (DESIGN CHOICE, log 84). -/
def Obligations.LaunchForms : Prop :=
  ∀ (s : State) (g : Guard) (a b d : Fin 32) (k : Fin 8) (n : Fin 16) (r : Fin 4 × Nat) (xl : Xlate) (p : Place),
    let x (o : ControlOp) : Slot := ⟨g, .c o⟩
    let route : Bool := s.dieRoute s.cur.1.val r.1.val
    let lost : State := s.takeTrap s.cur.1 s.cur.2
      { cause := .dataFault, mask := 1, status := 0x09, faddr := (s.sreg a).toNat, bad := (s.sreg a).toNat } true
    (s.recOperand (s.sreg a) = some r → route = false →
      (s.ready (x (.lpatch a b k)) = true → exec (.lpatch g a b k) s = .next lost) ∧
      (s.ready (x (.larm d a)) = true → exec (.larm g d a) s = .next lost)) ∧
    (s.ready (x (.lpatch a b k)) = true → s.late = false → s.recOperand (s.sreg a) = some r → route = true →
      s.recOpen r.1 r.2 (s.who s.cur.1 s.cur.2).asn = true →
      exec (.lpatch g a b k) s = .next (s.issued (x (.lpatch a b k))
        { s.blank with memq := [s.entry 0 (.lpatch (4096 * r.1.val + r.2) k (s.sreg b))] })) ∧
    (s.ready (x (.lpatch a b k)) = true → s.late = false → s.recOperand (s.sreg a) = some r → route = true →
      s.recOpen r.1 r.2 (s.who s.cur.1 s.cur.2).asn = false →
      exec (.lpatch g a b k) s = .next (s.takeTrap s.cur.1 s.cur.2 { cause := .launch, mask := 1 } true)) ∧
    (s.ready (x (.larm d a)) = true → s.recOperand (s.sreg a) = some r → route = true →
      exec (.larm g d a) s = .next (s.issued (x (.larm d a))
        { s.blank with memq := [s.entry 0 (.larm (.s d) (4096 * r.1.val + r.2) s.here.eng.joined)] })) ∧
    (s.ready (x (.lwait n)) = true → s.homeOk (s.areg n) xl p →
      let w := s.atHome s.cur.1 s.cur.2 xl.pa 8
      (w.1 = 0 → (s.here.aheadOf (rangeOf xl.pa 8) || w.2.relOwed s.cur.1 s.cur.2) = false → exec (.lwait g n) s = .next ((s.issued (x (.lwait n)) { s.blank with st := w.2 }).acquireLines s.cur.1 s.cur.2 .p)) ∧
      (w.1 ≠ 0 → w.2 = s → exec (.lwait g n) s = .next (s.setCore s.cur.1 s.cur.2 { s.here.wait
        { kind := 8, object := (s.areg n).toNat % 2 ^ 32, agent := agentUnknown, lwait := some (s.areg n), ends := some (.zero xl.pa),
          since := s.hub.ptime.toNat } with stallTaken := true })))

/-- 05_vector.md R133 to R140, R144 to R149, R159 and Tables 5-1 to 5-6: a vector operation on elements writes each element that takes part with
its rule applied to the source elements, other byte lanes of vD keep what they hold, and an operation that rounds under RS advances the
random state of its engine. -/
def Obligations.VectorElements : Prop :=
  ∀ (s : State) (g : Guard) (u : Bool) (o : VectorOp) (r : ElemRule),
    let x : Slot := ⟨g, .v u o⟩
    let e := s.envFor x
    vectorRule e o = some r → s.ready x = true →
    exec x.instr s = .next (s.issued x { s.blank with
      rng := s.rngAfter u r.rm
      pends := [s.vwrite u r.lat r.vd (writeElems r.w (s.here.regs.v[r.vd]).toNat (e.on r.w) fun i => r.f (e.rnd r.rm i) i)
        (laneMask r.w (e.on r.w))] })

/-- 03_numbers.md R63, R64, R88; 05_vector.md R134, R138, R139, R141 and Tables 5-1, 5-2, 5-4, element by element, for each type of 8, 16 and 32-bit
integers: sums, differences and products modulo the width, the high half of a product, saturating sums and differences, minimum and maximum, the
three shifts by the low bits of the second source (VSRA copies the top bit of an unsigned element too: "arithmetic right"), and VSEL by the guard bit
of pS at the element's lowest lane, two cycles later; the six compares write their bit into every byte lane of the element that is below VL. VADD of FP32
is the exact sum rounded once to the nearest, four cycles later. The byte lanes of elements that do not take part are not written. -/
def Obligations.VectorElementValues : Prop :=
  ∀ (s : State) (g : Guard) (u : Bool) (vd : Fin 32) (va vb : Fin 40) (pd ps : Fin 8) (t : Ty) (sg : Bool) (b : Nat),
    let writes (o : VectorOp) (b lat : Nat) (f : Nat → Nat → Nat → Nat) : Prop :=
      let x : Slot := ⟨g, .v u o⟩
      let e := s.envFor x
      s.ready x = true →
      ∃ w, exec x.instr s = .next (s.issuedWrites x [w]) ∧ w.dst = .v vd ∧ w.land = s.here.now + lat ∧
        w.latch = some (if u then 1 else 0) ∧ (∀ l, l < 256 → w.en.testBit l = e.on b (8 * l / b)) ∧
        ∀ i, i < 2048 / b → e.on b i = true → elemAt w.val b i = f i (elemAt (e.src va b) b i) (elemAt (e.src vb b) b i)
    let compares (o : VectorOp) (r : Int → Int → Bool) : Prop :=
      let x : Slot := ⟨g, .v u o⟩
      let e := s.envFor x
      let num (p : Nat) : Int := if sg then (BitVec.ofNat b p).toInt else p
      s.ready x = true →
      ∃ w, exec x.instr s = .next (s.issuedWrites x [w]) ∧ w.dst = .p pd ∧ w.land = s.here.now + 2 ∧
        ∀ l, l < 256 → w.en.testBit l = (e.on b (8 * l / b) && decide (l < s.here.regs.vl)) ∧
          (w.en.testBit l = true →
            w.val.testBit l = r (num (elemAt (e.src va b) b (8 * l / b))) (num (elemAt (e.src vb b) b (8 * l / b))))
    ((t, sg, b) ∈ [(.i8, true, 8), (.u8, false, 8), (.i16, true, 16), (.u16, false, 16), (.i32, true, 32), (.u32, false, 32)] →
      let num (p : Nat) : Int := if sg then (BitVec.ofNat b p).toInt else p
      let wrapped (z : Int) : Nat := (z % (2 ^ b : Nat)).toNat
      let least : Int := if sg then -(2 ^ (b - 1) : Nat) else 0
      let most : Int := if sg then (2 ^ (b - 1) : Nat) - 1 else (2 ^ b : Nat) - 1
      let clamped (z : Int) : Nat := wrapped (if z < least then least else if most < z then most else z)
      writes (.vadd vd va vb t) b 2 (fun _ p q => (p + q) % 2 ^ b) ∧
      writes (.vsub vd va vb t) b 2 (fun _ p q => wrapped ((p : Int) - q)) ∧
      writes (.vmul vd va vb t) b 2 (fun _ p q => p * q % 2 ^ b) ∧
      writes (.vmulh vd va vb t) b 2 (fun _ p q => wrapped (num p * num q / (2 ^ b : Nat))) ∧
      writes (.vadds vd va vb t) b 2 (fun _ p q => clamped (num p + num q)) ∧
      writes (.vsubs vd va vb t) b 2 (fun _ p q => clamped (num p - num q)) ∧
      writes (.vmin vd va vb t) b 2 (fun _ p q => wrapped (min (num p) (num q))) ∧
      writes (.vmax vd va vb t) b 2 (fun _ p q => wrapped (max (num p) (num q))) ∧
      writes (.vshl vd va vb t) b 2 (fun _ p q => p * 2 ^ (q % b) % 2 ^ b) ∧
      writes (.vshr vd va vb t) b 2 (fun _ p q => p / 2 ^ (q % b)) ∧
      writes (.vsra vd va vb t) b 2 (fun _ p q => wrapped ((BitVec.ofNat b p).toInt / (2 ^ (q % b) : Nat))) ∧
      writes (.vsel vd va vb t ps) b 2 (fun i p q => if (s.preg ps).testBit (b * i / 8) then p else q) ∧
      compares (.vcmpeq pd va vb t) (fun x y => decide (x = y)) ∧ compares (.vcmpne pd va vb t) (fun x y => decide (x ≠ y)) ∧
      compares (.vcmplt pd va vb t) (fun x y => decide (x < y)) ∧ compares (.vcmple pd va vb t) (fun x y => decide (x ≤ y)) ∧
      compares (.vcmpgt pd va vb t) (fun x y => decide (y < x)) ∧ compares (.vcmpge pd va vb t) (fun x y => decide (y ≤ x))) ∧
    writes (.vadd vd va vb .f32) 32 4 (fun _ p q => (Fmt.fp32.round .rne ((Fmt.fp32.decode p).add (Fmt.fp32.decode q))).1)

/-- 05_vector.md R141 to R143: compares, class tests and predicate logic write the lanes of the elements that take part, two cycles later (VCLASS
reads its mask at 16 bits for an 8-bit type too: DEDUCED, log 61, the model's reading). A write to p0 is discarded: a no-operation later, when it has
landed, every register holds what it held. -/
def Obligations.VectorPredicates : Prop :=
  ∀ (s : State) (g : Guard) (u : Bool) (o : VectorOp) (pd : Fin 8) (w : Nat) (f : Nat → Bool),
    let x : Slot := ⟨g, .v u o⟩
    predicateRule (s.envFor x) o = some (pd, w, f) → s.ready x = true →
    exec x.instr s = .next (s.issuedWrites x [s.predWrite x pd w f]) ∧
    (pd = 0 → s.here.pend = [] → s.here.srb.length ≤ 48 → s.here.waitc = none →
      (slotRefusal (s.here.profile s.cur.2) ⟨.always, .s .snop⟩).isNone = true → s.here.addrBreak = none →
      (∀ (i : Fin 4), (s.here.csr.bpCtl[i]).getLsbD 0 = false) →
      ∃ t v, exec x.instr s = .next t ∧ exec .snop t = .next v ∧ v.here.pend = [] ∧ v.here.regs = s.here.regs ∧ v.here.now = s.here.now + 2)

/-- 05_vector.md R147: a reduction writes element 0 of vD, and no other byte of it; of a nibble type it writes the low half of byte 0 alone. -/
def Obligations.VectorReductions : Prop :=
  ∀ (s : State) (g : Guard) (u : Bool) (o : VectorOp) (red : VRed) (vd : Fin 32) (va : Fin 40) (t : Ty) (ty : ETy),
    (o, red) ∈ [(.vrsum vd va t, .sum), (.vrmax vd va t, .max), (.vrmin vd va t, .min)] →
    let x : Slot := ⟨g, .v u o⟩
    let e := s.envFor x
    s.here.ty t = some ty → s.ready x = true →
    let r := red.eval ty e.vl e.guard (e.src va ty.bits)
    exec x.instr s = .next (s.issuedWrites x [s.vwrite u (if ty.isFlt then 4 else 2) vd
      ⟨(s.here.regs.v[vd]).toNat / 2 ^ r.1 * 2 ^ r.1 + r.2.1 % 2 ^ r.1,
        summarize (match r.2.2 with | some x => [(0, x)] | none => [])⟩ (2 ^ ((r.1 + 7) / 8) - 1 + if r.1 = 4 then nibbleOnly else 0)])

/-- 03_numbers.md R82, R83; 05_vector.md R150 to R152, R160 to R163: VMAXEXP to its scale latch, VSEEDC, VCVT, VTWR and VTRD. Of these clauses the
record of VMAXEXP with count 1 and element 0 is the model's choice (DESIGN CHOICE, log 62); that an empty VCVT advances the random state (DEDUCED,
log 63), and what a zero scale and the stochastic mode make of a value (DEDUCED, log 52), are its reading. -/
def Obligations.VectorConversions : Prop :=
  ∀ (s : State) (g : Guard) (u : Bool) (vd : Fin 32) (va vb : Fin 40) (tx : Fin 4) (n : Fin 16) (ts td : Ty) (rm : Rm) (sc : BitVec 6)
    (part : Fin 8) (a b : ETy), s.here.ty ts = some a → s.here.ty td = some b →
    let x (o : VectorOp) : Slot := ⟨g, .v u o⟩
    let old := (s.here.regs.v[vd]).toNat
    (∀ f m, a = .flt f m → let o := VectorOp.vmaxexp va ts
      let e := s.envFor (x o)
      s.ready (x o) = true →
      let r := maxexpCode f (((List.range (elemsBelow e.vl a.bits)).filter (e.on a.bits)).map (elemAt (e.src va a.bits) a.bits))
      exec (x o).instr s = .next (s.issuedWrites (x o) [{ s.write (if u then 4 else 3) 3 (.sl u) r.1 none with
        evs := summarize (match r.2 with | some v => [(0, v)] | none => []) }])) ∧
    (let o := VectorOp.vseedc vd va vb ts
      let e := s.envFor (x o)
      s.ready (x o) = true →
      let c := seedFields (e.k.readV vb a.bits)
      let sum (j : Nat) : Int :=
        let vals := seedValues (elemsBelow e.vl a.bits) c.2.1 c.2.2 ((c.1 + j) % 2 ^ 24)
        ((List.range (elemsBelow e.vl a.bits)).map fun i =>
          if e.on a.bits i then vals.getD i 0 * asInt true a.bits (elemAt (e.src va a.bits) a.bits i) else 0).foldl (· + ·) 0
      let on := fun i => decide (i < 8) && decide (4 * i < e.vl)
      exec (x o).instr s = .next (s.issuedWrites (x o) [s.vwrite u 6 vd (writeElems 32 old on fun i => (wrapInt 32 (sum i), none)) (laneMask 32 on)])) ∧
    (let o := VectorOp.vcvt vd va ts td sc rm part
      let e := s.envFor (x o)
      s.ready (x o) = true →
      let scale : Machine.Num := if sc = 0 then Fmt.e5m3.decode (s.here.regs.sl.getD (if u then 1 else 0) 0).toNat else .fin false 1 1
      let m := 2048 / Nat.max a.bits b.bits
      let first := if b.bits < a.bits then part.val * m else 0
      let source := if b.bits > a.bits then part.val * m else 0
      let on := fun i => e.on b.bits i && decide (first ≤ i) && decide (i < first + m)
      exec (x o).instr s = .next (s.issued (x o) { s.blank with
        rng := s.rngAfter u rm
        pends := [s.vwrite u 3 vd (writeElems b.bits old on fun i => cvtElem a b scale (e.rnd rm i)
          (elemAt (e.src va a.bits) a.bits (i - first + source))) (laneMask b.bits on)] })) ∧
    (let o := VectorOp.vtwr vd tx n td ts rm
      let e := s.envFor (x o)
      s.ready (x o) = true →
      let on := fun i => e.on a.bits i && decide (i < 2048 / a.bits)
      let r := writeElems b.bits 0 on fun i => b.round (e.rnd rm i) (a.value (elemAt (maskSource e.vl a.bits old) a.bits i))
      exec (x o).instr s = .next (s.issued (x o) { s.blank with
        rng := s.rngAfter u rm
        pends := [{ s.write (if u then 4 else 3) 2 (.tile tx n) r.v none with en := laneMask b.bits on, evs := r.evs }] })) ∧
    (let o := VectorOp.vtrd vd tx n td ts rm
      let e := s.envFor (x o)
      s.ready (x o) = true →
      let on := fun j => e.on b.bits j && decide (j < 16 * (128 / a.bits))
      let cell := fun j => elemAt ((s.here.regs.x[tx]).getD (j % 16) 0).toNat a.bits (n.val * (128 / a.bits) + j / 16)
      let r := writeElems b.bits old on fun j => b.round (e.rnd rm j) (a.value (cell j))
      exec (x o).instr s = .next (s.issued (x o) { s.blank with
        rng := s.rngAfter u rm
        pends := [{ s.vwrite u 3 vd r (laneMask b.bits on) with vt := some tileReadMark }] }))

/-- 05_vector.md R164, R165: vector loads and stores whose lanes pass their checks. A scratchpad load delivers at latency 4, a scratchpad
store writes at once, and the global forms enter the memory pipeline; VLDB spreads four bytes over every enabled element. -/
def Obligations.VectorMemory : Prop :=
  ∀ (s : State) (g : Guard) (u : Bool) (o : VectorOp) (vd : Fin 32) (ab : Fin 16) (sp pi : Bool) (i : BitVec 10) (cells : List (Nat × Nat))
    (cw : Bool),
    let x : Slot := ⟨g, .v u o⟩
    let e := s.envFor x
    let st := o = .vst vd ab sp pi i ∨ o = .vstnt vd ab sp pi i
    let ea := s.vmemEa ab pi i
    let n := if u then 4 else 3
    let v := (s.here.regs.v[vd]).toNat
    vectorMem o = some (vd, ab, sp, pi, i) → s.ready x = true →
    e.vmemCheck s.blank sp (decide st) ea (vectorLanes e o) = (.ok (cells, cw), s.blank) →
    s.clear x sp (!decide st) (decide st) ((vectorLanes e o).map fun l => (ea + BitVec.ofNat 64 l).toNat) = true →
    let all := if o = .vldb vd ab sp pi i then (e.lanesOn 32).flatMap fun j => cells.map fun c => (4 * j + c.1, c.2) else cells
    let out : Bytes := cells.map fun c => (c.2, BitVec.ofNat 8 (elemAt v 8 c.1))
    let inc := s.vmemInc u ab pi i
    exec x.instr s = .next (s.issued x (
      if st then
        (if sp then { s.blank with pends := inc, spad := writeCells s.here.spad out }
          else { s.blank with pends := inc, memq := [s.entry n (.store out cw (decide (o = .vstnt vd ab sp pi i)))] })
      else if sp then { s.blank with pends := inc ++ [s.vwrite u 4 vd ⟨spadLanes s.here.spad all, []⟩ (laneBits all)] }
      else { s.blank with
        pends := inc, memq := [s.entry n (.load (.v vd) .lanes all (decide (o = .vldnt vd ab sp pi i)) cw none)] }))

/-- 05_vector.md R166 to R168: gathers and scatters whose elements pass their checks, in ascending index; VSCATA adds every element. -/
def Obligations.VectorGathers : Prop :=
  ∀ (s : State) (g : Guard) (u : Bool) (o : VectorOp) (vd : Fin 32) (ab : Fin 16) (sp : Bool) (vi : Fin 40) (w : Nat)
    (places : List (Nat × Nat)) (cw : Bool),
    let x : Slot := ⟨g, .v u o⟩
    let e := s.envFor x
    let load := match o with | .vgath _ _ _ _ _ => true | _ => false
    let add := match o with | .vscata _ _ _ _ _ => true | _ => false
    let on := e.lanesOn (8 * w)
    let n := if u then 4 else 3
    let v := (s.here.regs.v[vd]).toNat
    gatherForm o = some (vd, ab, sp, vi, w) → s.ready x = true →
    e.vgatCheck w sp (if load then .read else if add then .atomic else .write) (e.vgatEa ab vi w) on s.blank = (.ok (places, cw), s.blank) →
    s.clear x sp (load || add) (!load) (on.flatMap fun i => rangeOf (e.vgatEa ab vi w i).toNat w) = true →
    let cells := places.flatMap fun p => (List.range w).map fun j => (w * p.1 + j, p.2 + j)
    let sums := places.foldl (fun m p => writeLE m p.2 w ((readLE m p.2 w + elemAt v (8 * w) p.1) % 2 ^ (8 * w))) s.here.spad
    let out : Bytes := places.flatMap fun p => (List.range w).map fun j => (p.2 + j, BitVec.ofNat 8 (elemAt v 8 (w * p.1 + j)))
    exec x.instr s = .next (s.issued x (
      if load then
        (if sp then { s.blank with pends := [s.vwrite u 4 vd ⟨spadLanes s.here.spad cells, []⟩ (laneBits cells)] }
          else { s.blank with memq := [s.entry n (.load (.v vd) .lanes cells false cw none)] })
      else if add then
        (if sp then { s.blank with spad := sums }
          else { s.blank with memq := [s.entry n (.addStore (places.map fun p => (p.2, w, elemAt v (8 * w) p.1)))] })
      else if sp then { s.blank with spad := writeCells s.here.spad out }
      else { s.blank with memq := [s.entry n (.store out cw false)] }))

/-- 05_vector.md R153 to R157: VTBLD that passes Table 5-9 with a free slot: FIRST takes an entry of the ring and opens a tile, LAST closes it,
and the row is on its way for eight cycles with the codebook context and the scale latch of the issue cycle. What it writes when it lands is in
`Obligations.WritesLand`. -/
def Obligations.TableBuild : Prop :=
  ∀ (s : State) (g : Guard) (u : Bool) (h : Fin 16) (va vb : Fin 40),
    let x : Slot := ⟨g, .v u (.vtbld h va vb)⟩
    let e := s.envFor x
    let ctl := s.here.readV vb 8
    let row := elemAt ctl 16 0
    let ng := elemAt ctl 16 1
    let first := ctl.testBit 32
    let acts := mergeLanes 8 256 0 (e.src va 8) (laneMask 8 (e.on 8))
    let r := s.here.rings[h]
    let entry := if first then r.a else (match r.openT with | some t => t.1 | none => r.a)
    s.ready x = true → vtbldCheck s.here r acts row ng first = none → (first = true → (r.a - r.h).toNat < r.nslot) →
    s.clear x true (!first) true (vtbldBytes (r.slotAddr entry) row (tableRowBytes s.here.regs.cbCfg.toNat ng) first) = true →
    exec (.vtbld g u h va vb) s = .next (s.issued x { s.blank with
      rings := s.here.rings.set h { r with
        a := if first then r.a + 1 else r.a
        openT := if ctl.testBit 33 then none else some (entry, ng, s.here.regs.cbGen.toNat) }
      pends := [{ s.write (if u then 4 else 3) 8 (.vtbld h) acts none with
        vt := some ⟨s.here.regs.cbCfg.toNat, s.here.regs.cbVals, s.here.regs.cbGen.toNat, (s.here.regs.sl.getD (if u then 1 else 0) 0).toNat,
          ctl % 2 ^ 40, entry.toNat, r.gen.toNat⟩ }] })

/-- 06_lut_engine.md R195; 07_matrix_ops.md R192, R194, R205 to R209, R213: the matrix instructions that push a command while the queue has
room, MACRD of an empty queue, and MRESET with nothing started. -/
def Obligations.MatrixForms : Prop :=
  ∀ (s : State) (g : Guard) (o : MatrixOp) (f : LutForm) (row : Fin 64) (col : Fin 16) (sh : Fin 4) (h : Fin 16) (vd : Fin 32),
    let x (o : MatrixOp) : Slot := ⟨g, .m o⟩
    let go (o : MatrixOp) (a : Acc) : Prop := exec (x o).instr s = .next (s.issued (x o) a)
    let push (o : MatrixOp) (grant : Nat) (rings : List (Fin 16)) (v : Nat) : Prop :=
      s.ready (x o) = true → s.here.eng.mq.length < 16 → go o (s.matPushed (s.matCmd (x o) o grant rings v))
    (lutForm o = some f → s.lookupOk f = true → push o (s.here.regs.sh[f.sh]).toNat f.rings 0) ∧
    (gridBad (s.here.regs.sh[sh]).toNat row.val col.val = false → push (.maclr row col sh) (s.here.regs.sh[sh]).toNat [] 0) ∧
    ((s.here.rings[h]).init = true → push (.mmask h) 0 [h] 0) ∧
    push (.macwr vd row col) 0 [] (s.here.regs.v[vd]).toNat ∧ push (.mbias vd row col) 0 [] (s.here.regs.v[vd]).toNat ∧
    (s.ready (x (.macrd vd row col)) = true → s.here.eng.mq = [] → go (.macrd vd row col) { s.blank with
      pends := [{ s.write 5 3 (.v vd) (accRow s.here.eng.acc row col) (some 4) with en := 2 ^ 256 - 1 }] }) ∧
    (s.ready (x .mreset) = true → (s.here.eng.mq.any fun m => m.st.isStarted) = false → go .mreset { s.blank with
      eng := { s.here.eng with mq := [], mask := 0 } })

/-- 08_core_memory.md R221, R227, R230, R232, R242, R250, R251: the copy instructions: those with a block push a command and take a ring entry if
they produce into one; YCANCEL marks what earlier bundles pushed; YLDV reads 256 bytes of the scratchpad. -/
def Obligations.CopyForms : Prop :=
  ∀ (s : State) (g : Guard) (u : Bool) (o : CopyOp) (f : CopyForm) (ab : Fin 16) (pi : Bool) (vd : Fin 32),
    let x (o : CopyOp) : Slot := ⟨g, .y u o⟩
    let n := if u then 7 else 6
    let inc (ab : Fin 16) (pi : Bool) : List Pend := if pi then [s.write n 1 (.a ab) (s.areg ab + 64).toNat none] else []
    let eng := s.here.eng
    (copyForm o = some f → s.ready (x o) = true → s.copyOk u f = true →
      exec (x o).instr s = .next (s.issued (x o) { s.blank with
        rings := s.copyRings f, eng := eng.withCopy u (s.copyCmd (x o) u o f), pends := inc f.ab f.pi })) ∧
    (s.ready (x .ycancel) = true → (eng.yq[copyIdx u]).length < 32 →
      let mark (y : CopyCmd) : CopyCmd := if y.bseq < s.here.bseq then { y with cancel := true } else y
      exec (.ycancel g u) s = .next (s.issued (x .ycancel) { s.blank with
        eng := Engines.withCopy { eng with yq := eng.yq.set (copyIdx u) ((eng.yq[copyIdx u]).map mark) } u
          ⟨eng.nextId, g, .ycancel, 0, s.here.pc, s.here.now, s.here.bseq, s.here.handler, none, .waiting, 0, none,
            eng.win[engIdx (copyEng u)], false, false, 0, [], none, [], [], none⟩ })) ∧
    (s.ready (x (.yldv ab pi vd)) = true → (s.areg ab).toNat + 256 ≤ 0x80000 → (s.areg ab).toNat % 4 = 0 →
      eng.lockOn (rangeOf (s.areg ab).toNat 256) = none → s.here.acquiring = false →
      exec (.yldv g u ab pi vd) s = .next (s.issuedWrites (x (.yldv ab pi vd)) (inc ab pi ++
        [{ s.write n 4 (.v vd) (readLE s.here.spad (s.areg ab).toNat 256) (some (if u then 6 else 5)) with en := 2 ^ 256 - 1 }])))

/-- 01_bundles.md R30, R32; 95_what_each_step_holds.md: BUNDLE_ISSUE of a bundle whose slots 1 and 2 hold ADD and AADD: both read their sources
before either writes, and both results are on their way; the bundle enters the decoded-operation cache (14_package.md R396). -/
def Obligations.BundleIssues : Prop :=
  ∀ (s : State) (g h : Guard) (d a b : Fin 32) (e f : Fin 16) (n : Fin 32) (next : W64) (ws : List Nat) (head w y : Nat),
    let x : Slot := ⟨g, .s (.add d a b)⟩
    let z : Slot := ⟨h, .a (.aadd e f n)⟩
    let p := s.here.profile s.cur.2
    s.awake = true → s.calm = true → s.here.noneOwed = true → s.takes x = true → s.takes z = true →
    s.codeHeld s.cur.1 s.cur.2 = none → fetchHead s.cur.1 s.cur.2 s = (.ok 0 0 next head, s) →
    s.fetchBundle s.cur.1 s.cur.2 head = (.ok ws, s) → bundleSlots p.gen ws = [(1, w, none), (2, y, none)] →
    decodeFor p 1 w none = .ok x → decodeFor p 2 y none = .ok z →
    exec (.bundleIssue s.cur.1 s.cur.2) s = .next (State.commit { (s.keepCode s.cur.1 s.cur.2 ws).blank with pends :=
      [s.write 1 1 (.s d) (s.sreg a + s.sreg b).toNat (some 2), s.write 2 1 (.a e) (s.areg f + s.sreg n).toNat (some 3)] }
      s.cur.1 s.cur.2 next)

/-- 01_bundles.md R15, R32, R37; 04_control_scalar.md R118: WRITE_LANDING with no write due changes nothing; one write that is due takes its
destination, and a write to p0 nothing; of two that are due for one s register, that of the higher slot is kept. 05_vector.md R154, R156, Table 5-10: a
VTBLD row that lands while its entry is assigned writes its scale byte and its entries, each the sum of values times activations; with FIRST the
header, else ROWS at most; and no other byte. With LAST the tile is finished: it is pushed when its turn has come (08_core_memory.md R221). -/
def Obligations.WritesLand : Prop :=
  ∀ (s : State) (d : Fin 4) (c : Fin 68) (w x : Pend) (l : List Pend) (n : Fin 32) (r : Core),
    let k := s.core d c
    let lands : Host.Outcome State Fault Refusal := exec (.writeLanding d c) s
    s.power = true → k.dbg.frozen = false → k.held = [] → k.stay = [] → (∀ y ∈ l, k.now < y.land) →
    (k.pend = l → lands = .next s) ∧
    (k.pend = w :: l → w.land ≤ k.now → w.evs = [] → landed { k with pend := l } w = some r → lands = .next (s.setCore d c r)) ∧
    (k.pend = w :: l → w.land ≤ k.now → w.evs = [] → w.dst = .p 0 → w.latch = none → lands = .next (s.setCore d c { k with pend := l })) ∧
    (k.pend = [w, x] ∨ k.pend = [x, w] → w.land ≤ k.now → x.land ≤ k.now → w.slot < x.slot → w.dst = .s n → x.dst = .s n →
      w.handler = k.handler → x.handler = k.handler → w.evs = [] → x.evs = [] →
      ∃ t, lands = .next t ∧ (t.core d c).readS n = BitVec.ofNat 64 x.val ∧ (t.core d c).pend = []) ∧
    ∀ h t, k.pend = w :: l → w.land ≤ k.now → w.evs = [] → w.latch = none → w.dst = .vtbld h → w.vt = some t →
      let g := k.rings[h]
      let e := BitVec.ofNat 32 t.entry
      let row := bits t.desc 15 0
      let ng := bits t.desc 31 16
      let first := t.desc.testBit 32
      let last := t.desc.testBit 33
      let at0 := g.slotAddr e
      let groups := rowGroups t.cfg ng
      let bytes := 2 * entryCount t.cfg * groups
      let row0 := at0 + 48 + row * bytes
      g.gen.toNat = t.ringGen → g.init = true → (e - g.h).toNat < (g.a - g.h).toNat → row < 16 → swf k.spad = true →
      ∃ u, lands = .next (s.setCore d c u) ∧ u.pend = l ∧ u.regs = k.regs ∧ u.csr = k.csr ∧ u.full = k.full ∧
        sget u.spad (at0 + 32 + row) = BitVec.ofNat 8 t.scale ∧
        (∀ i v, i < groups → v < entryCount t.cfg →
          readLE u.spad (row0 + rowOffset t.cfg i v) 2 = if i < ng then (entrySum t.cfg t.vals w.val i v % 65536).toNat else 0) ∧
        (first = true →
          (∀ x ∈ [(0, 1, 2), (1, 1, bits t.cfg 1 0), (2, 2, 0), (4, 2, row + 1), (6, 2, ng), (8, 2, groupSize t.cfg * ng), (10, 2, bits t.cfg 12 9),
              (12, 2, t.cbGen), (14, 2, bits t.cfg 7 7 + 2 * bits t.cfg 8 8), (16, 4, 0x78), (20, 4, 32), (24, 4, 48), (28, 4, 0)],
            readLE u.spad (at0 + x.1) x.2.1 = x.2.2 % 2 ^ (8 * x.2.1)) ∧
          ∀ i, i < 16 → i ≠ row → sget u.spad (at0 + 32 + i) = 0) ∧
        (first = false → readLE u.spad (at0 + 4) 2 = Nat.max (readLE k.spad (at0 + 4) 2) (row + 1) ∧
          ∀ b, at0 ≤ b → b < at0 + 48 → b ≠ at0 + 4 → b ≠ at0 + 5 → b ≠ at0 + 32 + row → sget u.spad b = sget k.spad b) ∧
        (∀ b, (b < at0 ∨ at0 + 48 ≤ b) → (b < row0 ∨ row0 + bytes ≤ b) → sget u.spad b = sget k.spad b) ∧
        (∀ i, i ≠ h → u.rings[i] = k.rings[i]) ∧ (last = false → u.rings[h] = g) ∧
        (last = true → (u.rings[h]).h = g.h ∧ (u.rings[h]).a = g.a ∧
          (g.done = [] → e = g.t → (u.rings[h]).t = g.t + 1 ∧ (u.rings[h]).done = []) ∧
          (g.t ∉ g.done → e ≠ g.t → (u.rings[h]).t = g.t ∧ e ∈ (u.rings[h]).done))

/-- 04_control_scalar.md R102, R122, R128 to R132; 10_cluster.md R289, R290; 11_ordering.md R306 to R313; 13_scheduling.md R346 to R349: an entry of
the memory pipeline that nothing before it holds back is performed: it leaves the pipeline and has its effect, and ends the waits
for words that it has changed at their homes (09_core_traps.md Table 9-10). -/
def Obligations.PipelineSteps : Prop :=
  ∀ (s : State) (d : Fin 4) (c : Fin 68) (n : Nat) (m : MemOp),
    let k := s.core d c
    let t := s.retireEntry d c n
    let go (i : Instr) (r : State) : Prop := exec i s = .next (r.noteHome s (.core d c) fun pa => m.kind.bytes.any fun b => s.ownPa b / 8 * 8 == pa)
    let deliver (r : State) (dst : Dst) (v en : Nat) : State := r.modCore d c fun k => k.arrive m.iss m.slot m.handler dst v en
    s.power = true → k.dbg.frozen = false → k.memq[n]? = some m → s.mayPerform d c n = true →
    (∀ dst fmt cells na, m.kind = .load dst fmt cells na false none →
      let r := t.loadValue d c (k.memq.take n) m.bseq na cells
      go (.interlockedResultArrival d c n) (deliver r.2.2 dst (fmt.apply r.1) r.2.1)) ∧
    (∀ pa b l cw, m.kind = .store ((pa, b) :: l) cw false → (∀ y ∈ (pa, b) :: l, s.cacheable y.1 = true) →
      go (.storeQueueDrain d c n) (t.l1Store d c ((pa, b) :: l) cw)) ∧
    (∀ pa inv, m.kind = .flushLine pa inv → go (.storeQueueDrain d c n) (t.l1Line d c (lineOf pa) inv)) ∧
    (∀ sc inv, m.kind = .flush sc inv → go (.releasePerformed d c n) (t.l1Maintain d c sc inv)) ∧
    (∀ pa b l sc cmds, m.kind = .release ((pa, b) :: l) sc cmds → s.cacheable pa = true → sc ≠ .c →
      go (.releasePerformed d c n) (((t.releaseLines d c sc).storeThrough d c sc ((pa, b) :: l)).noteWord (.core d c) pa)) ∧
    (∀ pa sc cmds, m.kind = .arrive .arrive pa sc cmds →
      go (.barrierStep d c n) ((((t.releaseLines d c sc).expose d c pa).stepWord pa barOwnArrive).noteWord (.core d c) pa)) ∧
    (∀ v pa sc cmds, m.kind = .arrive (.init v) pa sc cmds →
      go (.barrierStep d c n) (((t.expose d c pa).stepWord pa fun _ => barInit v).noteWord (.core d c) pa)) ∧
    (∀ pa sc cmds, m.kind = .arrive .remAddr pa sc cmds → s.isFabric pa = false →
      go (.barrierStep d c n) ((((t.releaseLines d c sc).expose d c pa).stepWord pa barArrive).noteWord (.core d c) (s.ownPa pa))) ∧
    (∀ j pa sc cmds, m.kind = .arrive (.remSet j) pa sc cmds →
      go (.sliceSetRequest d c n) (((t.releaseLines d c sc).setArrive d (clusterOf c) j d k.thr.idx).noteSet (.core d c) (t.sets d (clusterOf c) j))) ∧
    (∀ dst i cmds, m.kind = .larm dst i cmds →
      let u := t.releaseLines d c .p
      u.dieRoute d.val (dieOf (i / 4096)).val = true →
      let r := u.armRec (dieOf (i / 4096)) (i % 4096) (s.who d c).asn
      go (.armStep d c n) (deliver r.2 dst r.1 0)) ∧
    (∀ i j v, m.kind = .lpatch i j v → s.dieRoute d.val (dieOf (i / 4096)).val = true →
      go (.patchStep d c n) (t.dieWrite (dieOf (i / 4096)) (cellsOf ((s.die (dieOf (i / 4096))).recAddr (i % 4096) + 0x80 + 8 * j.val) v.toNat 8)))

/-- 04_control_scalar.md R102, R122; 08_core_memory.md R228: results that arrive. A load of one byte that no cache and no store of its thread
holds delivers the byte of memory to its s register, and leaves memory as it is. A BTOK whose engine's commands have retired delivers its
base plus 32 × the worst token of its window, and the window's tokens go. -/
def Obligations.ResultsArrive : Prop :=
  ∀ (s : State) (d : Fin 4) (c : Fin 68) (m : MemOp) (n : Fin 32) (pa : Nat) (b : Btok),
    let k := s.core d c
    s.power = true → k.dbg.frozen = false → k.pend = [] → k.srb = [] → k.tap.saved = [] →
    (k.memq = [m] → m.kind = .load (.s n) .zext [(0, pa)] false false none → s.cacheable pa = true → k.l1 = [] →
      (s.slice d (clusterOf c)).lines = [] → (s.die d).bridge = [] → k.held = [] → m.handler = k.handler →
      ∃ t, exec (.interlockedResultArrival d c 0) s = .next t ∧ (t.core d c).readS n = (sget s.mem pa).setWidth 64 ∧ t.mem = s.mem ∧
        (t.core d c).memq = []) ∧
    (k.memq = [] → k.held = [] → k.eng.btoks = [b] → b.handler = k.handler → b.eng = .m → (∀ m ∈ k.eng.mq, b.bseq ≤ m.bseq) →
      let own (t : Eng × Nat × Nat) : Bool := t.1 == Eng.m && t.2.1 == b.win
      let worst := (k.eng.toks.filter own).foldl (fun m t => Nat.max m t.2.2) 0
      exec (.interlockedResultArrival d c 0) s = .next (s.setCore d c { k with
        eng := { k.eng with btoks := [], toks := k.eng.toks.filter fun t => !own t }
        regs := { k.regs with b := k.regs.b.set b.dst (b.base + BitVec.ofNat 64 (32 * worst)) } }))

/-- 10_cluster.md R289, R290: BARARV's step on a barrier word of memory that no cache holds: WAITPH takes PH, ARR counts, the last arrival
turns the phase; no other byte of memory changes. -/
def Obligations.ArrivalStep : Prop :=
  ∀ (s : State) (d : Fin 4) (c : Fin 68) (m : MemOp) (pa : Nat) (cmds : List Nat) (exp arr : Nat) (wait ph : Bool),
    let k := s.core d c
    s.power = true → k.dbg.frozen = false → k.memq = [m] → m.kind = .arrive .arrive pa .c cmds → s.commandsDone d c cmds = true → k.tableAhead m = false →
    s.cacheable pa = true → s.hub.fabCfg.getLsbD 4 = false → s.poisoned pa = false → pa % 8 = 0 → (∀ i, i < 8 → s.hasMem (pa + i) = true) →
    k.l1 = [] → (∀ e j, (s.slice e j).lines = []) → (s.die d).bridge = [] → Memory.wf s.mem = true → exp < 2 ^ 16 → arr < exp →
    readLE s.mem pa 8 = barPack exp arr wait ph →
    ∃ t, exec (.barrierStep d c 0) s = .next t ∧
      readLE t.mem pa 8 = (if arr + 1 = exp then barPack exp 0 ph (!ph) else barPack exp (arr + 1) ph ph) ∧
      (∀ a, a < pa ∨ pa + 8 ≤ a → sget t.mem a = sget s.mem a)

/-- 06_lut_engine.md R181; 07_matrix_ops.md R193, R196, R200, R205 to R209: the matrix engine. A command at the head of its queue, with its tiles
at the heads of their rings, starts when its checks pass and is held at the first that fails; a started lookup retires in one step; MACLR,
MACWR, MBIAS and MMASK act on the accumulator and the mask. A command whose ring was initialised anew leaves without effect. That MACLR, MACWR and
MBIAS start and retire in one step, that a ring is popped only if the tile is still at its head, and that MMASK reads its tile once, at its start,
are the model's choice (DESIGN CHOICE, log 39), and so are the fields kept and draws, which hold what a lookup has read of its tiles
(DESIGN CHOICE, log 40). The elements of a plain lookup whose mask is disarmed hold their value (03_numbers.md R92; 06_lut_engine.md R174, R175, R184): block
by block the sum of the table entries that the codes name, times w_scale times a_scale, rounded once and added; no other element changes. -/
def Obligations.MatrixEngine : Prop :=
  ∀ (s : State) (d : Fin 4) (c : Fin 68) (m : MatCmd) (l : List MatCmd) (f : LutForm) (row : Fin 64) (col : Fin 16) (sh : Fin 4) (vd : Fin 32)
    (h : Fin 16),
    let k := s.core d c
    let go (i : Instr) (k : Core) : Prop := exec i s = .next (s.setCore d c k)
    let left (e : Engines) : Engines := { e with mq := l, retired := e.retired + 1 }
    let head (m : MatCmd) : Engines := { k.eng with
      mq := m :: l, draws := k.eng.draws + (if k.eng.kept.isSome then 2 ^ 20 else 0) }
    let put (f : Nat → Nat) : List (Nat × BitVec 32) :=
      (List.range 64).foldl (fun acc i => sset acc (512 * row.val + 32 * col.val + i) (BitVec.ofNat 32 (f i))) k.eng.acc
    s.power = true → k.dbg.frozen = false → k.dbg.stepping = false → k.waitc = none → (s.die d).holds c = false → k.eng.mq = m :: l →
    k.csr.statEn = false →
    (k.matStopped m = true → m.st = .waiting → m.isLookup = true →
      go (.lookupCommandStart d c) { k with eng := { left k.eng with toks := k.eng.toks ++ [(.m, m.win, 1)] } }) ∧
    (k.matStopped m = false → k.matReady m = true → lutForm m.op = some f → m.st = .waiting →
      let n := { m with tiles := f.rings.map k.headTile, mask := k.eng.mask }
      (k.lutCheck n f = none → go (.lookupCommandStart d c) { k with eng := head { n with st := .started } }) ∧
      (∀ cause code, k.lutCheck n f = some (cause, code) →
        go (.lookupCommandStart d c) { k with eng := head { n with st := .held cause code (tCbGen (n.job f).t) false } })) ∧
    (k.matStopped m = false → lutForm m.op = some f → m.st = .started → m.done = [] →
      (∀ t ∈ m.tiles, t.fixed = 0 ∧ t.val = rangeValue k.spad t.addr (k.rings[t.ring]).slotBytes) →
      let acc := ((m.job f).elements k.eng.acc m.mask).foldl (fun acc e => sset acc e.idx (BitVec.ofNat 32 e.val)) k.eng.acc
      go (.lookupCommandRetire d c) { k with
        eng := left { k.eng with
          acc := acc
          kept := if f.keep then m.tiles.head?.map fun t => ⟨t, (k.rings[t.ring]).gen⟩ else k.eng.kept.filter fun x => x.tile.ring != f.ht }
        rings := (k.popTiles m).rings }) ∧
    (k.matStopped m = false → lutForm m.op = some f → f.lists = none → f.seeded = false → m.st = .started → m.done = [] → m.mask = 0 →
      (∀ t ∈ m.tiles, t.fixed = 0 ∧ t.val = rangeValue k.spad t.addr (k.rings[t.ring]).slotBytes) → swf k.eng.acc = true →
      let t := m.tileOf f.ht
      let w := m.tileOf f.hw
      let rows := Nat.min (tileField t 4 2) m.gm
      let cols := Nat.min (tileField w 6 2) m.gn
      let place (i n : Nat) : Nat := 512 * (f.row.val + i) + 32 * f.col.val + n
      32 * f.col.val + cols ≤ 512 →
      ∃ u, exec (.lookupCommandRetire d c) s = .next (s.setCore d c u) ∧
        (∀ i n, i < rows → n < cols → sget u.eng.acc (place i n) = BitVec.ofNat 32
          (lookupElement m.cfg t w m.gk (if f.clr then 0 else (sget k.eng.acc (place i n)).toNat) i n)) ∧
        ∀ b, (∀ i n, i < rows → n < cols → b ≠ place i n) → sget u.eng.acc b = sget k.eng.acc b) ∧
    (k.matReady m = true → m.op = .maclr row col sh →
      go (.maclrRetire d c) { k with eng := left { k.eng with acc := k.eng.acc.filter fun x =>
        !(decide (row.val ≤ x.1 / 512) && decide (x.1 / 512 < row.val + m.gm) && decide (32 * col.val ≤ x.1 % 512) &&
          decide (x.1 % 512 < 32 * col.val + m.gn)) } }) ∧
    (k.matReady m = true → m.op = .macwr vd row col → go (.macwrRetire d c) { k with eng := left { k.eng with acc := put (elemAt m.vd 32) } }) ∧
    (k.matReady m = true → m.op = .mbias vd row col → go (.mbiasRetire d c) { k with eng := left { k.eng with acc := put fun i =>
      (Fmt.fp32.round .rne ((Fmt.fp32.decode (sget k.eng.acc (512 * row.val + 32 * col.val + i)).toNat).add
        (Fmt.fp32.decode (elemAt m.vd 32 i)))).1 } }) ∧
    (m.op = .mmask h → k.matStopped m = false →
      let n := { m with tiles := [k.headTile h], mask := k.eng.mask }
      (m.st = .waiting → k.matReady m = true → maskCheck (k.headTile h).val (k.rings[(k.headTile h).ring]).slotBytes = none →
        go (.mmaskStart d c) { k with eng := head { n with st := .started } }) ∧
      (∀ t, m.st = .started → m.tiles = [t] →
        let b := maskBlock t.val
        go (.mmaskRetire d c) { k with
          eng := left { k.eng with mask := if b % 256 = 1 then b else 0 }
          rings := (k.popTiles m).rings }))

/-- 08_core_memory.md R227, R234, R236 to R238, R241, R250: the copy engines. A command at the head that is halted, cancelled or malformed ends with
its status; a running one performs its next chunk; a completed one leaves, its completion record written full, word 1 and word 0; a YCANCEL
leaves; a YPUSH finishes marked entries, and counts one chunk in word 1, which is the model's choice (DESIGN CHOICE, log 77). A chunk of a YFILL of
bytes in the local scratchpad stores its value in the bytes that the block names, at most 2,048 of one row (R231, R235, R236), one of a YCOPY of bytes
from there the source bytes of its row, zero at and above EROWS and ECOLS (R235), a YREM the low 32 bits of SRC in its word, with MODE 1 once the
word is empty (R247); each makes every word that it touches full (R217), and changes no other byte, register, ring or core. -/
def Obligations.CopyEngine : Prop :=
  ∀ (s : State) (d : Fin 4) (c : Fin 68) (u : Bool) (y : CopyCmd) (l : List CopyCmd),
    let k := s.core d c
    let head (z : CopyCmd) : State := s.setCore d c { k with eng := { k.eng with yq := k.eng.yq.set (copyIdx u) (z :: l) } }
    let w : Yc := ⟨d, c, copyIdx u, y⟩
    let ends (st : Nat) : Prop := exec (.copyChunk d c u) s = .next (head { y with st := .ended st, page := none })
    let acked := (s.hub.fabWrites.any fun x => x.die == d && x.core == c && x.cmd == some y.id) = false
    let unlocked (a n : Nat) : Prop := (k.eng.locks.any fun z => z.eng != copyEng u && decide (z.lo < a + n) && decide (a ≤ z.hi)) = false
    let wrote (a n : Nat) (f : Nat → Byte) : Prop := ∃ t z, exec (.copyChunk d c u) s = .next t ∧ 0 < n ∧ n ≤ 2048 ∧
        (∀ i, i < n → sget (t.core d c).spad (a + i) = f i) ∧
        (∀ b, b < a ∨ a + n ≤ b → sget (t.core d c).spad b = sget k.spad b) ∧
        (∀ x, x ∈ (t.core d c).full ↔ x ∈ k.full ∨ (a / 4 ≤ x ∧ x ≤ (a + n - 1) / 4)) ∧
        (t.core d c).eng.yq[copyIdx u] = z :: l ∧ z.chunk = y.chunk + 1 ∧ z.st = .running ∧
        t.mem = s.mem ∧ (t.core d c).regs = k.regs ∧ (t.core d c).rings = k.rings ∧ (t.core d c).csr = k.csr ∧ (t.core d c).pend = k.pend ∧
        ∀ e j, (e, j) ≠ (d, c) → t.core e j = s.core e j
    s.power = true → k.dbg.frozen = false → k.dbg.stepping = false → k.waitc = none → (s.die d).holds c = false →
    k.eng.yq[copyIdx u] = y :: l →
    (copyForm y.op = none → exec (.copyCompletionRecord d c u) s =
      .next (s.setCore d c { k with eng := { k.eng with yq := k.eng.yq.set (copyIdx u) l } })) ∧
    ∀ f, copyForm y.op = some f →
    (y.st = .waiting → f.kind ≠ .push → y.halted = true → ends 0x01) ∧
    (y.st = .waiting → f.kind ≠ .push → y.halted = false → y.cancel = true → ends 0x02) ∧
    (y.st = .waiting → f.kind ≠ .push → y.halted = false → y.cancel = false → k.fenced (copyEng u) y.bseq = false →
      k.acquireBefore y.bseq = false → k.matsPending y = false → planOf f y.blk = none → ends 0x03) ∧
    (∀ p evs t, y.st = .running → y.halted = false → y.cancel = false → planOf f y.blk = some p → y.chunk < p.n →
      k.eng.spill[copyIdx u] = [] → k.slotBusy y = false → (w.chunk f.kind).run.run s = (.ok evs, t) →
      exec (.copyChunk d c u) s =
        .next (t.modHead w fun y => { y with chunk := y.chunk + 1, evs := mergeEvs y.evs (summarize evs), page := none, rng := none })) ∧
    (∀ ab pi lock sc p, y.op = .yfill ab pi lock sc → y.st = .running → y.halted = false → y.cancel = false →
      planOf ⟨.fill, ab, pi, lock, sc⟩ y.blk = some p → y.chunk < p.n → blkDDesc y.blk = 0 → blkFlags y.blk = 0x40 →
      k.eng.spill[copyIdx u] = [] → k.slotBusy y = false → swf k.spad = true →
      let per := ceilDiv (blkCols y.blk) 2048
      let j0 := y.chunk % per * 2048
      let n := Nat.min (blkCols y.blk) (j0 + 2048) - j0
      ∀ a : Nat, (a : Int) = blkDst y.blk + (y.chunk / per : Nat) * blkDStride y.blk + (j0 : Nat) → a + n ≤ 0x80000 →
      unlocked a n → wrote a n fun _ => BitVec.ofNat 8 (blkSrc y.blk)) ∧
    (∀ ab pi lock sc p, y.op = .ycopy ab pi lock sc → y.st = .running → y.halted = false → y.cancel = false →
      planOf ⟨.copy, ab, pi, lock, sc⟩ y.blk = some p → y.chunk < p.n → blkSDesc y.blk = 0 → blkDDesc y.blk = 0 → blkFlags y.blk = 0x50 →
      k.eng.spill[copyIdx u] = [] → k.slotBusy y = false → swf k.spad = true →
      let per := ceilDiv (blkCols y.blk) 2048
      let row := y.chunk / per
      let j0 := y.chunk % per * 2048
      let n := Nat.min (blkCols y.blk) (j0 + 2048) - j0
      ∀ a z : Nat, (a : Int) = blkDst y.blk + row * blkDStride y.blk + (j0 : Nat) → (z : Int) = blkSrc y.blk + row * blkSStride y.blk + (j0 : Nat) →
      a + n ≤ 0x80000 → z + n ≤ 0x80000 → (a + n ≤ z ∨ z + n ≤ a) → unlocked a n → unlocked z n →
      wrote a n fun i => if row < blkERows y.blk ∧ j0 + i < blkECols y.blk then sget k.spad (z + i) else 0) ∧
    (∀ ab pi lock sc p, y.op = .yrem ab pi lock sc → y.st = .running → y.halted = false → y.cancel = false →
      planOf ⟨.rem, ab, pi, lock, sc⟩ y.blk = some p → y.chunk = 0 → k.eng.spill[copyIdx u] = [] → k.slotBusy y = false → swf k.spad = true →
      let a := blkDst y.blk
      a + 4 ≤ 0x80000 → unlocked a 4 →
      (blkFlags y.blk = 0x40 ∨ blkFlags y.blk = 0x1040 ∧ a / 4 ∉ k.full →
        wrote a 4 fun i => BitVec.ofNat 8 (blkSrc y.blk % 2 ^ 32 / 256 ^ i)) ∧
      (blkFlags y.blk = 0x1040 → a / 4 ∈ k.full → exec (.copyChunk d c u) s = .next s)) ∧
    (∀ st, y.st = .ended st → st < 0x10 → acked → ((k.eng.spill[copyIdx u]).any fun p => p.cmd == y.id) = false → k.recordLocked u y = false →
      blkCplEn y.blk = true → swf k.spad = true →
      ∃ t, exec (.copyCompletionRecord d c u) s = .next t ∧ (t.core d c).eng.yq[copyIdx u] = l ∧
        readLE (t.core d c).spad (blkCplOff y.blk) 4 = blkCplVal y.blk ∧
        readLE (t.core d c).spad (blkCplOff y.blk + 4) 4 = st + 256 * (y.chunk % 2 ^ 24) ∧
        (∀ a, a < blkCplOff y.blk ∨ blkCplOff y.blk + 8 ≤ a → sget (t.core d c).spad a = sget k.spad a) ∧
        blkCplOff y.blk / 4 ∈ (t.core d c).full ∧ blkCplOff y.blk / 4 + 1 ∈ (t.core d c).full) ∧
    (∀ r g, y.ring = some r → f.kind = .push → k.fenced (copyEng u) y.bseq = false → k.acquireBefore y.bseq = false →
      k.recordLocked u y = false → y.cancel = false → y.halted = false → (k.rings[r.1]).gen = r.2.1 → (planOf f y.blk).isSome = true →
      (k.rings[r.1]).pushMarked (blkRows y.blk) = some g →
      exec (.ypushFinish d c u) s =
        .next (s.setCore d c ({ k with rings := k.rings.set r.1 g }.finishCopy u { y with chunk := 1 } 0)))

/-- 08_core_memory.md R228; 09_core_traps.md R254, R275; 10_cluster.md R280, R281; 12_die.md R330; 13_scheduling.md R352; 04_control_scalar.md R103: what
a core's caches and its other agents do on their own. A line goes back from L1 to its slice and from a slice to its home; a miss fills; a walk
marks the leaf; a pending asynchronous cause enters the handler at a boundary, or takes a halted thread off its core; the 32 bytes of a statistics
record reach its buffer, once the pipeline is empty (DEDUCED, log 48, the model's reading); a thread with nothing outstanding completes, its OUTSCYC
the cycle of its HALT (DEDUCED, log 27, the model's reading). -/
def Obligations.CoreHousekeeping : Prop :=
  ∀ (s : State) (d : Fin 4) (c : Fin 68) (j : Fin 8) (line : Nat) (evict write : Bool) (va : W64),
    let k := s.core d c
    let a := lineOf line
    let go (i : Instr) (r : State) : Prop := exec i s = .next r
    let quietLines := k.l1 = [] ∧ ((s.slice d (clusterOf c)).lines.filter fun x => x.cores.contains c.val) = []
    s.power = true →
    (∀ l, k.l1Find a = some l → go (.l1Writeback d c line evict) ((s.writeBackLine d c .k l).modCore d c fun k =>
      if evict then { k with l1 := k.l1.filter fun y => y.addr != a }
      else { k with l1 := { l with dirty := 0, tag := if l.tag = .c then .k else l.tag } :: k.l1.filter fun y => y.addr != a })) ∧
    (∀ l, (s.slice d j.val).find a = some l → l.poison = false → s.ownerDie a = d → Memory.wf s.mem = true →
      ∃ t, exec (.l2Writeback d j line evict) s = .next t ∧
        (∀ i, i < 64 → sget t.mem (a + i) = if l.dirty.getLsbD i then l.data.extractLsb' (8 * i) 8 else sget s.mem (a + i)) ∧
        (∀ b, b < a ∨ a + 64 ≤ b → sget t.mem b = sget s.mem b) ∧
        (∀ l', (t.slice d j.val).find a = some l' → evict = false ∧ l'.dirty = 0 ∧ l'.data = l.data)) ∧
    (k.dbg.frozen = false → s.cacheable a = true → (k.memq.any fun m => m.kind.wantsLine a) = true →
      go (.l1MissFill d c line) (((s.l1Fill d c a false).2).l1Fill d c (a + 32) false).2) ∧
    (k.run ≠ .idle → (s.who d c).on = true → canonical va = true →
      ((s.die d).nextMiss = none → ∀ r t, s.walkNow (s.who d c) (if write then .write else .read) va = (.ok r, t) → go (.pageWalk d c va write) t) ∧
      (∀ x, (s.die d).nextMiss = some x → x.core = c → x.merges ((s.who d c).miss (if write then .write else .read) va) = true →
        go (.pageWalk d c va write) (s.serveMiss d x))) ∧
    (∀ t k' counted, k.run = .running → k.dbg.frozen = false → k.dbg.stepping = false → k.owed = none → k.handler = false → isTaproot c = false →
      (s.die d).holds c = false → k.takeAsync = some (t, k') → t.cause ≠ .preempt → s.settleNext d c = (s, some counted) →
      k'.handlerTakes t = true → (k'.memq.all fun m => m.kind.dst.isNone) = true → t.toTaproot = false →
      go (.asyncTrapTake d c) (s.setCore d c
        (k'.enterHandler (({ t with more := k'.asyncPending } : Trap).frame k') counted))) ∧
    (∀ t k', k.run = .halted → k.dbg.frozen = false → ({ k with preempt := false } : Core).takeAsync = some (t, k') → k.memq = [] →
      k.stats = [] → quietLines →
      ∃ r, exec (.haltedCauseDelivery d c) s = .next r ∧ (r.core d c).run = .idle ∧ ((r.die d).recd k.thr.idx).st = .trapped) ∧
    (∀ r l x, k.dbg.frozen = false → k.statStuck = false → isTaproot c = false → k.memq = [] → k.stats = r :: l → k.csr.statEn = true →
      k.csr.statLost = 0 → (k.csr.statTail + 1 - k.csr.statHead).toNat ≤ k.csr.statSize.toNat →
      let va := k.csr.statBase + BitVec.ofNat 64 (32 * (k.csr.statTail.toNat % k.csr.statSize.toNat))
      canonical va = true → s.locate (s.who d c) .write va 32 = (.ok (x, .mem), s) → Memory.wf s.mem = true → x.pa % 32 = 0 →
      (∀ i, i < 32 → s.hasMem (x.pa + i) = true ∧ s.isFabric (x.pa + i) = false) →
      ∃ t, exec (.statRecordWrite d c) s = .next t ∧ (t.core d c).stats = l ∧ (t.core d c).csr.statTail = k.csr.statTail + 1 ∧
        (t.core d c).regs = k.regs ∧ ∀ i, i < 32 → sget t.mem (x.pa + i) = BitVec.ofNat 8 (r.value / 256 ^ i)) ∧
    (k.run = .halted → k.dbg.frozen = false →
      let t := s.setCore d c k.landAll
      let j := t.core d c
      t.haltedDone d c = true → j.memq = [] → j.eng.btoks = [] →
      go (.threadCompletion d c) (((((t.leaveAll d j.thr.idx).releaseLines d c .p).statFlushAll d c).modCore d c Core.vacate).completeRecord
        d j.thr.idx 0 (j.cyc - 1)))

/-- 10_cluster.md R299, R301; 12_die.md R326, R332, R334, R336, R338 to R341; 13_scheduling.md R355 to R362 and the register tables: the services of a
die that the package holds (00_scope.md R1), each where it has its effect. An error of a slice that is corrected counts; one in a clean line drops
the line, one in a dirty line poisons it (R299); one in a tag marks the way failed, so that its lines miss, and one in a set's state empties the set,
each with a machine check (R301). Of these clauses the following are the model's reading, all DEDUCED: the lines that an error names (log 24); a pass
without a trigger changes nothing, and a window boundary makes one due (log 26); the OUTSCYC of an ended thread (log 27); a hard hold marks, and the
mark stays until the window ends (log 47); NRCMD on a record whose event is held (log 73); the order of a TLBINV (log 46); the die that logs a refused
register write (log 9). -/
def Obligations.DieServices : Prop :=
  ∀ (s : State) (d t : Fin 4) (j : Fin 8) (v : W64) (i : BitVec 16) (code : BitVec 32) (tag off : Nat) (cmd : TlbCmd) (l : List TlbCmd)
    (q : PagerReq) (c : Fin 68),
    let x := s.die d
    let go (e : Instr) (r : State) : Prop := exec e s = .next r
    let die (e : Instr) (y : Die) : Prop := go e (s.setDie d y)
    let r := x.recd i.toNat
    let swept : Option State :=
      if tlbIdle cmd then some s
      else if tlbKind cmd = 3 then some (s.purgeRange d (tlbStart cmd) (tlbStop cmd))
      else (List.finRange 68).foldl (fun r c => r.bind fun s => s.invalidateCore coreReg d cmd c) (some s)
    let writes (pa : Nat) (r : State) : Prop :=
      s.checkPhys d (64 + t.val) true .write pa 8 = .ok .reg → go (.registerWrite ⟨.taproot d t, pa⟩ v) r
    let held := x.events.any fun e => (e.kind == 1 || e.kind == 4) && e.idx == i.toNat
    s.power = true →
    (s.hasDie d.val = true → die (.l2EccError d j .corrected) { x with l2ce := x.l2ce.set j (x.l2ce[j] + 1) } ∧
      (let z := s.slice d j.val
       (∀ y, z.find (lineOf off) = some y → y.dirty = 0 → ∃ r, exec (.l2EccError d j (.cleanLine off)) s = .next r ∧
        (r.slice d j.val).find (lineOf off) = none ∧ (∀ b, lineOf b ≠ lineOf off → (r.slice d j.val).find (lineOf b) = z.find (lineOf b)) ∧
        r.mem = s.mem ∧ (r.die d).mcq = x.mcq ∧ ∀ e i, r.core e i = s.core e i) ∧
       (∀ y, z.find (lineOf off) = some y → y.dirty ≠ 0 → ∃ r, exec (.l2EccError d j (.dirtyLine off)) s = .next r ∧
        (r.slice d j.val).find (lineOf off) = some { y with poison := true } ∧
        (∀ b, lineOf b ≠ lineOf off → (r.slice d j.val).find (lineOf b) = z.find (lineOf b)) ∧ r.mem = s.mem ∧ (r.die d).mcq = x.mcq) ∧
       (∀ w held, w ∉ z.failed → ∃ u : State, exec (.l2EccError d j (.tagWay w held)) s = .next (u.machineCheck d 1 j.val 0) ∧
        (u.slice d j.val).failed = z.failed ++ [w] ∧ (∀ a ∈ held, (u.slice d j.val).find (lineOf a) = none) ∧
        (∀ b, (∀ a ∈ held, lineOf a ≠ lineOf b) → (u.slice d j.val).find (lineOf b) = z.find (lineOf b)) ∧ u.mem = s.mem ∧
        (u.die d).mcq = x.mcq) ∧
       (∀ n, ∃ u : State, exec (.l2EccError d j (.setState n)) s = .next (u.machineCheck d 2 (32 * j.val + n.val) 0) ∧ u.sets d j.val n.val = [] ∧
        (∀ m, m < 32 → m ≠ n.val → u.sets d j.val m = s.sets d j.val m) ∧ (u.slice d j.val).lines = z.lines ∧ u.mem = s.mem))) ∧
    (s.hasDie d.val = true → x.tlbCmds = cmd :: l → ∀ y, swept = some y →
      (cmd.performed = true → go (.tlbinvComplete d) (y.modDie d fun x => { x with tlbCmds := l, tlbDone := x.tlbDone + 1 })) ∧
      (cmd.performed = false →
        let done := y.modDie d fun x => { x with tlbCmds := markPerformed x.tlbCmds }
        (tlbKind cmd = 0 → go (.tlbinvAll d) done) ∧ (tlbKind cmd = 1 → go (.tlbinvAsn d) done) ∧
        (tlbKind cmd = 2 → go (.tlbinvRange d) done) ∧ (tlbKind cmd = 3 → go (.tlbinvCwPurge d) done))) ∧
    (s.hasDie d.val = true → x.pager.find? (fun r => r.tag == tag) = some q →
      (s.coresOf d q.asn = [] → die (.pgansMapped d tag) { x with pager := x.pager.filter fun r => r.tag != tag } ∧
        die (.pgansDeclined d tag) { x with pager := x.pager.filter fun r => r.tag != tag }) ∧
      (s.coresOf d q.asn = [c] → ∀ m, x.cores[c].eng.yq = #v[[m], []] → m.st = .running → m.page = some q.vpn →
        x.cores[c].eng.spill = #v[[], []] →
        let put (m : CopyCmd) : Die := { x with
          pager := x.pager.filter fun r => r.tag != tag
          cores := x.cores.set c { x.cores[c] with eng := { x.cores[c].eng with yq := #v[[m], []] } } }
        die (.pgansMapped d tag) (put { m with page := none }) ∧
        die (.pgansDeclined d tag) (put { m with st := .ended 0x04, page := none }))) ∧
    (s.hasDie d.val = true →
      go (.preload d j) ((List.range (pinSize x.hwpin[j] / 64)).foldl (fun s n =>
        let a := pinBase x.hwpin[j] + 64 * n
        if s.hasMem a && s.ownerDie a == d then s.pinFill d a else s) s) ∧
      (v.getLsbD 62 = false → die (.pinRangeWrite d j v) { x with
        hwpin := x.hwpin.set j (v &&& 0xBFF83FFFFFE00000)
        pinned := if (x.hwpin[j]).getLsbD 63 && !v.getLsbD 63 then x.pinned.filter fun a => !pinCovers x.hwpin[j] a else x.pinned }) ∧
      die (.atlockSet d) { x with atLock := true } ∧ die (.atlogClear d) { x with atLog := 0 } ∧
      (x.atLock = true → die (.accessTableWrite d off v) x) ∧
      (x.atLock = false → ∀ n, n < 64 → die (.accessTableWrite d (0x400 + 8 * n) v) { x with atDom := x.atDom.setIfInBounds n v }) ∧
      (x.atLock = false → die (.accessTableWrite d 0x700 v) { x with atDef := v &&& 0xFFFFFFFF }) ∧
      die (.ebudgetWrite d v) { x with
        ebudget := (v &&& 0x800000FF00000000) ||| BitVec.ofNat 64 (Nat.max 30000 (Nat.min 150000 (v.toNat % 2 ^ 32)))
        hardHold := x.hardHold || x.spent }) ∧
    (s.hasDie d.val = false → ∀ e ∈ [Instr.tlbinvAll d, .preload d j, .atlockSet d, .accessTableWrite d off v, .ebudgetWrite d v,
      .l2EccError d j .corrected, .energyWindowBoundary d, .energyHardHold d, .energySoftLimit d, .schedulerPass d, .nrcmdResume d i,
      .nrcmdEnd d i code, .nrcmdRemove d i, .nrcmdPreempt d i, .registerWrite ⟨.taproot d t, off⟩ v], go e s) ∧
    (s.hasDie d.val = true → s.cfg.form ≠ .D → writes 0x300400000108 (s.modHub fun h => { h with mbRoute := v &&& 3 })) ∧
    (s.hasDie d.val = true → writes (0x300000002008 + 2 ^ 32 * d.val) (s.setDie d { x with schedCfg := v &&& 0x0000FFFFFFFF0001 })) ∧
    (∀ e, s.hasDie d.val = true → s.checkPhys d (64 + t.val) true .write off 8 = .error e → e ≠ .fabUnlinked → go (.registerWrite ⟨.taproot d t, off⟩ v) (e.log s)) ∧
    (s.hasDie d.val = true →
      (x.recs = [] → die (.energyWindowBoundary d) { x with
        eused := BitVec.ofNat 64 (x.eused.toNat - x.budget), hardHold := false, softLow := false, admSum := 0, passDue := true }) ∧
      (x.budgetOn = true → x.budget ≤ x.eused.toNat → die (.energyHardHold d) { x with hardHold := true }) ∧
      (x.budgetOn = true → bits x.ebudget.toNat 39 32 * x.budget ≤ 256 * x.eused.toNat → die (.energySoftLimit d) { x with softLow := true }) ∧
      (x.passDue = false ∨ s.hub.boot ≠ .done → go (.schedulerPass d) s) ∧
      (s.hub.boot = .done → x.passDue = true → x.schedOn = false → die (.schedulerPass d) { x with passDue := false }) ∧
      (let u := s.setDie d { x with passDue := false }
       ∀ y n, s.hub.boot = .done → x.passDue = true → x.schedOn = true → u.candidates d = [y] →
        (x.recd y.idx).st = .armed → u.admitted d (x.recd y.idx) = true →
        u.chooseCore d (x.recd y.idx) (((List.range 64).filter fun c => u.suits d (x.recd y.idx) c && !([] : List Nat).contains c).filter
          (u.freeCore d)) = some n →
        go (.schedulerPass d) (u.startThread d (Fin.ofNat 68 n) y.idx)) ∧
      (r.st = .trapped → held = false → go (.nrcmdResume d i) ((s.setRec d { r with st := .ready }).modDie d fun x => { x with passDue := true })) ∧
      (r.st = .trapped → held = true → go (.nrcmdResume d i) s ∧ go (.nrcmdEnd d i code) s) ∧
      (r.st = .armed → go (.nrcmdRemove d i) (s.setRec d (.fresh i.toNat))) ∧
      (r.st = .trapped ∧ held = false ∨ r.st = .parked ∨ r.st = .ready → 0 < code.toNat → code.toNat < 0xE0 →
        go (.nrcmdEnd d i code) (s.completeRecord d r.idx code.toNat (match r.saved with | some k => k.cyc - 1 | none => 0))) ∧
      (r.st = .running → s.coreOf d i.toNat = some c → (s.core d c).run = .running →
        go (.nrcmdPreempt d i) (s.setCore d c { s.core d c with preempt := true })))

/-- 14_package.md R363 to R390, R402; 15_fabric.md R417: resets, starts, the host, the trigger, links, memory errors, attestation, fuses, debug
unlock, heat and the loader. A load with another MAGIC or VERSION has status 1, one whose first section of unknown TYPE with MU is section i has status
3 and index i unless an earlier check fails, and a load that fails maps nothing (R391 to R395). Of these clauses the following are not the spec's
words: the SHA-256 of mrExtend (PRESUMED, log 18); the host's master 80, its BAR2 window and its access to an unreachable die (DEDUCED, log 13); the die that takes a machine check of a
link or a port (DEDUCED, log 19); the new GSEQ in the shadow block (log 22); the dirty lines of the Heartwood (log 23); the registers at reset (log 3);
what boot leaves (log 20); the addresses of a mapped section (DEDUCED, log 29); the writes on their way that a Taproot trap sets aside (DEDUCED, log
75); the mark of thermalThrottle (DEDUCED, log 47); portTrain on form D (DESIGN CHOICE, log 76). -/
def Obligations.PackageSteps : Prop :=
  ∀ (s : State) (d t : Fin 4) (v : W64) (j : Fin 64) (m : Fin 8) (pa base size : Nat) (data : List Byte) (a b : Fin 4) (n : BitVec 256)
    (p : Fin 8) (peer : Fin 16) (w : Fin 4),
    let go (e : Instr) (r : State) : Prop := exec e s = .next r
    let hub (e : Instr) (h : Hub) : Prop := go e { s with hub := h }
    let h := s.hub
    let x := s.die d
    let endpoint := s.cfg.form ≠ .D ∧ s.cfg.straps.getLsbD 0 = true
    (∃ r, exec .coldReset s = .next r ∧ r.power = true ∧ r.hub.revoke = h.revoke ∧ r.hub.rollback = h.rollback ∧
      (∀ e c, isTaproot c = false → r.core e c = .start)) ∧
    (s.power = true →
      (∃ r, exec .warmReset s = .next r ∧ (s.cfg.stage1 = [] → r.mem = s.dram) ∧ r.hub.revoke = h.revoke ∧ r.hub.rollback = h.rollback ∧
        (∀ e c, isTaproot c = false → r.core e c = .start) ∧ (∀ e, (r.die e).etotal = (s.die e).etotal ∧ (r.die e).ceCnt = (s.die e).ceCnt)) ∧
      (s.hasDie d.val = true → h.boot = .done → v.getLsbD 0 = true → (s.core d (Fin.ofNat 68 (64 + t.val))).run = .idle →
        go (.taprootStart d t v) ((s.setDie d { x with trStart := x.trStart.set t (v &&& 0x00003FFFFFFFFFFD) }).setCore d (Fin.ofNat 68 (64 + t.val))
          { Core.start with run := .running, pc := BitVec.ofNat 64 (4 * bits v.toNat 45 2) })) ∧
      (let c : Fin 68 := Fin.ofNat 68 (64 + t.val)
       let k := s.core d c
       ∀ i, s.hasDie d.val = true → k.run = .running → k.delay = 0 → k.tap.ie = true → s.interrupt d c = some i →
        go (.taprootInterrupt d t) (s.setCore d c { k with
          tap := { k.tap with epc := k.pc, cause := BitVec.ofNat 64 (2 ^ 63 + i), bad := 0, psm := k.tap.sm, pie := true, ie := false, sm := true
                              saved := ⟨k.pend.map fun w => { w with land := w.land - k.now }, k.held, k.stallTaken, k.now⟩ :: k.tap.saved }
          pend := [], held := [], pc := k.tap.vec, stallTaken := false, answers := [], waitc := none })) ∧
      (endpoint → j.val < 16 → hub (.hostDoorbell j) { h with mbPend := h.mbPend ||| BitVec.ofNat 64 (2 ^ j.val) }) ∧
      (endpoint → hub (.outdbSend v) { h with msiSent := h.msiSent ++ [v.toNat % 64] }) ∧
      (s.cfg.form ≠ .D → s.cfg.straps.getLsbD 0 = false → j.val < 32 →
        hub (.inboundMsi j) { h with msiPend := h.msiPend ||| BitVec.ofNat 64 (2 ^ j.val) }) ∧
      ((endpoint → s.inBar2 pa data.length = true) → s.inboundReach pa data.length = true → s.inboundRefused 80 true pa data.length = none →
        go (.pcieInboundAccess true pa data) (s.homeWrite (cellsAt pa data))) ∧
      (s.cfg.form ≠ .D → v.getLsbD 0 = true → h.trigAt = none →
        hub (.gtrigWrite v) { h with trigAt := some (h.ptime + (if h.fabCfg.getLsbD 7 then 4096 else 256)) }) ∧
      (h.trigAt = none → hub (.triggerMessage v) { h with trigAt := some v }) ∧
      (h.trigAt = some v → h.ptime = v → ∃ r, exec .triggerShadowCopy s = .next r ∧ r.hub = { h with gseq := h.gseq + 1, trigAt := none } ∧
        sget (r.die d).shadow 0 = h.gseq + 1 ∧ sget (r.die d).shadow 8 = v ∧ r.mem = s.mem) ∧
      (s.hasDie a.val = true → s.hasDie b.val = true → a ≠ b → Link.dies a b ∉ h.linksDown →
        go (.linkDown (.dies a b)) (({ s with hub := { h with linksDown := h.linksDown ++ [.dies a b] } } : State).machineCheck a 3 (0x10 + b.val) 0)) ∧
      ((h.fabPort[p]).getLsbD 1 = true → go (.canopyPortDown p)
        (({ s with hub := { h with fabPort := h.fabPort.set p (h.fabPort[p] &&& 0xF001) } } : State).machineCheck 0 3 (0x200 + p.val) 0)) ∧
      (let up := { h with fabPort := h.fabPort.set p (BitVec.ofNat 64 (peer.val * 2 ^ 12 + w.val * 2 ^ 4 + 3)) }
       let lower := peer.val < s.pkgId ∨ ∃ n, n < s.pkgId ∧ ({ s with hub := up } : State).routeTo n = true
       (h.fabPort[p]).getLsbD 0 = true → w ≠ 0 →
        (lower → hub (.portTrain p peer w v) { up with ptime := v }) ∧ (¬ lower → hub (.portTrain p peer w v) up)) ∧
      (s.hasDie d.val = true → s.hasMem (lineOf pa) = true → s.ownerDie (lineOf pa) = d →
        exec (.memoryUncorrectable d pa) s = (let a := lineOf pa
          .next ((if s.heartDirty a then s else { s with poison := insertNat a s.poison, dramPoison := insertNat a s.dramPoison }).machineCheck d 4
            (s.channel a) a)) ∧
        (x.scrub ≠ 0 → exec (.patrolScrub d pa (some false)) s = exec (.memoryUncorrectable d pa) s)) ∧
      (s.hasDie d.val = true → x.scrub ≠ 0 → s.hasMem (lineOf pa) = true → s.ownerDie (lineOf pa) = d → go (.patrolScrub d pa none) s ∧
        (let n := s.channel (lineOf pa)
         go (.patrolScrub d pa (some true)) (s.setDie d { x with ceCnt := x.ceCnt.setIfInBounds n ((x.ceCnt.getD n 0 + 1) &&& 0xFFFFFFFF) }))) ∧
      (s.cfg.form ≠ .D → ∃ r, exec (.attestReport n) s = .next { s with hub := { h with report := some r } } ∧
        r.length = 744 ∧ r.take 4 = [0x47, 0x4C, 0x41, 0x52] ∧ (r.drop 24).take 32 = beBytes n.toNat 32) ∧
      hub (.mrExtend m n) { h with mr := h.mr.set m (BitVec.ofNat 256 (beOf (sha256 (beBytes (h.mr[m]).toNat 32 ++ beBytes n.toNat 32)))) } ∧
      (h.boot = .stage1 ∨ h.boot = .done →
        hub (.fuseRaise ⟨.revoke, true⟩ v) { h with revoke := h.revoke ||| (v &&& 0xF) } ∧
        hub (.fuseRaise ⟨.rollback t, true⟩ v) { h with rollback := h.rollback.set t (h.rollback[t] ||| v) }) ∧
      go (.fuseRaise ⟨.revoke, false⟩ v) s ∧ go (.fuseRaise ⟨.rollback t, false⟩ v) s ∧
      hub (.debugUnlock true) { h with unlocked := true } ∧ go (.debugUnlock false) s ∧
      (s.hasDie d.val = true →
        go (.thermalThrottle d) (s.setDie d { x with thermLow := true }) ∧
        (x.thermHold = false → go (.thermalHold d) ((s.setDie d { x with thermHold := true }).machineCheck d 5 0 0)) ∧
        go (.thermalHoldRelease d) (s.setDie d { x with thermHold := false }) ∧ go (.thermtrip d) { s with power := false }) ∧
      (s.hasDie d.val = false → ∀ e ∈ [Instr.thermalThrottle d, .thermalHold d, .thermtrip d, .taprootStart d t v, .taprootInterrupt d t,
        .linkDown (.dies d a), .memoryUncorrectable d pa, .patrolScrub d pa (some true)], go e s) ∧
      go (.lkiLoad base size) (s.loadImage base size) ∧
      (let f (off n : Nat) : Nat := readLE s.mem (base + off) n
       let type (i : Nat) : Nat := f (f 8 4 + 32 * i) 2
       let flags (i : Nat) : Nat := f (f 8 4 + 32 * i + 2) 2
       let odd (i : Nat) : Prop := i < f 12 2 ∧ (type i = 0 ∨ 8 < type i) ∧ (flags i).testBit 0 = true
       ∃ r : LoadResult, s.loadImage base size = { s with hub := { h with lastLoad := some r } } ∧ r.status ∈ [0, 1, 3, 4, 5, 6, 7] ∧
        (f 0 4 ≠ 0x31494B4C ∨ f 4 2 ≠ 1 → r.status = 1) ∧ (r.status ≠ 0 → r.mapped = [] ∧ r.bound = []) ∧
        (∀ i, odd i → (∀ m, m < i → ¬ odd m) → r.status = 1 ∨ r.status = 6 ∨ (r.status = 3 ∧ r.index = i)) ∧
        (r.status = 3 → odd r.index) ∧ (r.status = 7 ↔ r.inst.isSome = true) ∧
        (r.status = 0 → ∀ i, ¬ odd i ∧ (i ∈ r.mapped ↔ i < f 12 2 ∧ 1 ≤ type i ∧ type i ≤ 8 ∧ (flags i).testBit 1 = true))))

/-- 09_core_traps.md R268 to R270; 14_package.md R387: the debug port where it is open, on an engine core. FREEZE freezes; on a frozen core
RESUME, STEP, STEPOVER, READ, CANCEL, REINJECT and WRITE act; on another they only set ERR. WRITE gives every register, CSR, scratchpad byte and
full/empty bit what the layout of the save area makes of the image with its eight bytes replaced (at 0x200 + 8n, sn is the data), and leaves writes on
their way, rings and the memory pipeline. 15_fabric.md R404 to R416: the fabric's own steps: contributions enter, merge, reach their home and close
their round there. Of these clauses, what FREEZE does to a started lookup (DESIGN CHOICE, log 39), the operand of REINJECT and CANCEL (DEDUCED, log
28), the engines of a frozen core (DEDUCED, log 48), and a window register written by halves and contributions that leave the package (DEDUCED, log
25), that the fabric's registers of a bare die change by these steps alone (DESIGN CHOICE, log 76), and which items WRITE changes and which it leaves
(DESIGN CHOICE, log 90) are the model's. -/
def Obligations.PortAndFabric : Prop :=
  ∀ (s : State) (d : Fin 4) (c : Fin 68) (i j src : Nat) (w : Pend) (l : List Pend) (v : W64) (n : Fin 16) (r : Fin 15) (pa : Nat)
    (data : List Byte) (a b : Contribution),
    let k := s.core d c
    let h := s.hub
    let dbg (e : Instr) (f : Debug → Debug) : Prop := exec e s = .next (s.setCore d c { k with dbg := f k.dbg })
    let hub (e : Instr) (h : Hub) : Prop := exec e s = .next { s with hub := h }
    s.power = true →
    (s.portOpen = true → s.hasDie d.val = true → isTaproot c = false →
      exec (.freeze d c) s = .next (s.setCore d c { k.stopLut with
        dbg := { k.dbg with frozen := true, reason := 0, stepping := false, stepOver := none, err := false } }) ∧
      (k.dbg.frozen = false → ∀ e ∈ [Instr.resume d c, .step d c, .stepover d c, .read d c, .cancel d c, .reinject d c, .write d c],
        dbg e fun g => { g with err := true }) ∧
      (k.dbg.frozen = true →
        exec (.resume d c) s = .next (s.setCore d c { k with skipBp := true, dbg := { k.dbg with frozen := false, err := false } }) ∧
        dbg (.step d c) (fun g => { g with frozen := false, stepping := true, moved := [], err := false }) ∧
        dbg (.stepover d c) (fun g => { g with frozen := false, stepOver := some (bits g.cmd.toNat 12 8), err := false }) ∧
        (let x := readLE (k.dbgErr false).portImage (bits k.dbg.cmd.toNat 63 16 / 8 * 8) 8
         dbg (.read d c) fun g => { g with err := false, data := BitVec.ofNat 64 x }) ∧
        (k.srb = [] → k.pend = w :: l → bits k.dbg.cmd.toNat 63 16 = 0 →
          exec (.cancel d c) s = .next (s.setCore d c { k with pend := l, dbg := { k.dbg with err := false } })) ∧
        (pendOf (k.dbgErr false) k.dbg.recd = some w → k.inFlight < 64 →
          exec (.reinject d c) s = .next (s.setCore d c { k with pend := k.pend ++ [w], dbg := { k.dbg with err := false } })) ∧
        (let u := (k.dbgErr false).restoreRegs
            (writeLE (k.dbgErr false).portImage (bits k.dbg.cmd.toNat 63 16 / 8 * 8) 8 k.dbg.data.toNat)
         ∃ t, exec (.write d c) s = .next (s.setCore d c t) ∧
          t = ({ u with skipBp := k.skipBp, statStuck := k.statStuck, spad := k.spad } : Core).setSpad u.spad ∧
          (∀ n : Fin 32, bits k.dbg.cmd.toNat 63 16 / 8 * 8 = 0x200 + 8 * n.val → swf (k.dbgErr false).portImage = true →
            t.regs.s[n] = k.dbg.data) ∧
          t.regs = u.regs ∧ t.csr = u.csr ∧ t.spad = u.spad ∧ t.full = u.full ∧ t.pc = u.pc ∧
          t.pend = k.pend ∧ t.rings = k.rings ∧ t.memq = k.memq ∧ t.run = k.run))) ∧
    (s.fabricOn = true → s.inboundReach (pa % 2 ^ 40) data.length = true → s.inboundRefused 81 true (pa % 2 ^ 40) data.length = none →
      exec (.fabricInboundAccess src pa (.write data)) s =
        .next ((s.homeWrite (cellsAt (pa % 2 ^ 40) data)).noteLines (.fabric src) (touched (pa % 2 ^ 40) data.length))) ∧
    ((h.contribs.any fun x => x.srcs.contains i) = false →
      hub (.fabricWriteAck i) { h with fabWrites := h.fabWrites.filter fun x => x.id != i }) ∧
    (h.contribs[i]? = some a → h.contribs[j]? = some b → i ≠ j → s.windowOf a.line = some a.window → a.window = b.window → a.line = b.line →
      a.count + b.count ≤ winExpect h.fabRed[a.window] →
      (((h.contribs.take (Nat.max i j)).drop (Nat.min i j + 1)).any fun y => s.sentBefore y b) = false →
      let one : Contribution := { a with
        count := a.count + b.count, en := a.en ||| b.en, data := mergeElems h.fabRed[a.window] a b, srcs := a.srcs ++ b.srcs
        pkgs := a.pkgs ++ b.pkgs }
      hub (.switchMerge i j) { h with contribs := listDrop (listSet h.contribs i one) j }) ∧
    (h.contribs[i]? = some a → ((h.contribs.take i).any fun y => s.sentBefore y a) = true → exec (.homeMerge (.held i)) s = .next s) ∧
    (h.contribs[i]? = some a → ((h.contribs.take i).any fun y => s.sentBefore y a) = false →
      let gone := { h with contribs := listDrop h.contribs i }
      (fabPkg a.line ≠ s.pkgId → (s.portOf a.route).isSome = true → hub (.homeMerge (.held i)) gone) ∧
      (fabPkg a.line ≠ s.pkgId → s.portOf a.route = none →
        exec (.homeMerge (.held i)) s = .next (({ s with hub := gone } : State).loseWrites a.srcs 0x08)) ∧
      (fabPkg a.line = s.pkgId → s.hubRoute (s.ownerDie (a.line % 2 ^ 40)).val = true → s.inboundOk a.line true = true →
        s.windowOf a.line = some n → h.openEntries = [] → a.count < winExpect h.fabRed[n] → hub (.homeMerge (.held i)) { gone with openEntries := [{ a with window := n }] }) ∧
      (fabPkg a.line = s.pkgId → s.hubRoute (s.ownerDie (a.line % 2 ^ 40)).val = true → s.inboundOk a.line true = true →
        s.windowOf a.line = some n → h.openEntries = [] → winExpect h.fabRed[n] ≤ a.count →
        let w := h.fabRed[n]
        let z := winElem w
        let at0 := a.line % 2 ^ 40
        let note := winNotify w
        Memory.wf s.mem = true → (∀ e j, (s.slice e j).lines = []) → at0 % 64 = 0 → (∀ m, m < 64 → s.hasMem (at0 + m) = true) →
        (∀ m, m < 8 → s.hasMem (note + m) = true ∧ s.isFabric (note + m) = false) → s.cacheable note = true → s.poisoned note = false →
        note + 8 ≤ at0 ∨ at0 + 64 ≤ note →
        ∃ r, exec (.homeMerge (.held i)) s = .next r ∧
          (winExpect w < a.count → r.hub.fabRed[n] = (w.1, w.2 ||| 0x4000000000000000)) ∧
          (a.count = winExpect w → r.hub = gone ∧
            (∀ m, m < 64 / z → readLE r.mem (at0 + z * m) z =
              if a.en.getLsbD (z * m) then
                let x := elemAt a.data.toNat (8 * z) m
                (if winCombine w then winOp w (readLE s.mem (at0 + z * m) z) x else x) % 2 ^ (8 * z)
              else readLE s.mem (at0 + z * m) z) ∧
            readLE r.mem note 8 = barArrive (readLE s.mem note 8) % 2 ^ 64 ∧
            ∀ b, (b < at0 ∨ at0 + 64 ≤ b) → (b < note ∨ note + 8 ≤ b) → sget r.mem b = sget s.mem b))) ∧
    (∀ line count en bytes, s.isFabric line = true →
      hub (.homeMerge (.entered src line count en bytes)) { h with contribs := h.contribs ++
        [⟨(s.windowOf line).getD 0, lineOf line, count, en, bytes, [], src, s.routeWord (fabPkg line), [src]⟩] } ∧
      (fabPkg line = s.pkgId →
        let waits := (h.contribs.any fun y => y.pkgs.contains src && fabPkg y.line == s.pkgId)
        (waits = true → exec (.homeMerge (.arrived src line count en bytes)) s = .next s) ∧
        (waits = false → s.hubRoute (s.ownerDie (lineOf line % 2 ^ 40)).val = true → s.inboundOk (lineOf line) true = true → s.windowOf (lineOf line) = some n → h.openEntries = [] →
          count < winExpect h.fabRed[n] →
          hub (.homeMerge (.arrived src line count en bytes)) { h with openEntries :=
            [⟨n, lineOf line, count, en, bytes, [], src, 0, [src]⟩] }))) ∧
    (let old := h.fabRed[n]
     let u : W64 × W64 := (v &&& 0x000000FFFFFF0003, old.2)
     winEn u = false → hub (.fabredWrite n false v)
      { h with fabRed := h.fabRed.set n u, openEntries := h.openEntries.filter fun e => e.window != n }) ∧
    hub (.routeWrite r v) { h with route := h.route.set r (v &&& 0x8787) } ∧
    hub (.fabcfgWrite v) { h with fabCfg := if v &&& 0xF = 0xF then v &&& 0x8F else v &&& 0x9F }

/-- 14_package.md R402: with power every instruction answers a next state, and no instruction is refused. Once the board has removed power
(THERMTRIP) every step but COLD_RESET stops; the rule says only that the power goes, and the stop is the model's reading (DEDUCED, log 53). -/
def Obligations.EveryInstructionAnswers : Prop :=
  ∀ (s : State) (i : Instr),
    (s.power = true → ∃ t, exec i s = .next t) ∧ (∃ t, exec .coldReset s = .next t) ∧
    (s.power = false → i ≠ .coldReset → exec i s = .fault .powerOff)

/-- 00_scope.md R7 and the reset columns of 12_die.md Tables 12-7, 12-9, 12-11, 13_scheduling.md Table 13-5, 14_package.md Tables 14-5, 14-7 and
15_fabric.md Table 15-3: reset values that the spec gives, the canonical form of the empty memories, every core within its bounds, and every ring in
order (08_core_memory.md R218). Where the spec gives no reset value the model's own stands (all DESIGN CHOICE): what memory reads as where nothing is
listed (log 2), the idle run state, the bounds of a core's registers and the order of its rings (log 3), and its scratchpad (log 4). -/
def Obligations.ResetValues : Prop :=
  State.reset.coresInBounds ∧ (∀ d c, ∀ h : Fin 16, ((State.reset.core d c).rings[h]).ordered) ∧
  Memory.wf State.reset.mem = true ∧ Memory.wf State.reset.dram = true ∧ Memory.wf State.reset.fabMem = true ∧
  (∀ d c, (State.reset.core d c).run = .idle ∧ (State.reset.core d c).handler = false) ∧
  (∀ d, (State.reset.die d).atDef = 0x10001 ∧ (State.reset.die d).atLock = false ∧ (State.reset.die d).schedCfg = 0x0000F00407D00000 ∧
    (State.reset.die d).scrub = 86400 ∧ (State.reset.die d).ebudget = 0x800000E000018E70) ∧
  State.reset.hub.fabCfg = 0x0F ∧ State.reset.hub.ptime = 0 ∧ (∀ p : Fin 8, State.reset.hub.fabPort[p] = 0xF001) ∧
  (∀ n : Fin 15, State.reset.hub.route[n] = 0)

/-- A step takes the outside's tick and then runs one instruction: the head of the agenda; with none, a pass that a scheduler has to make
(13_scheduling.md R355); with none, and a core that does not wait, the bundle at the pc of the core named by `cur`. Where that core tries its
bundle now and the bundle, read in memory, holds one slot alone, whose words decode to a well-formed operation, the step is that instruction, the
bundle's words being in the decoded-operation cache from then on (01_bundles.md R17, R26; 14_package.md R396; DESIGN CHOICE, log 1). -/
def Obligations.StepRunsDecoded : Prop :=
  ∀ (s : State) (x : Slot) (i : Instr) (l : List Instr),
    let t := s.tickEnv
    let d := t.cur.1
    let c := t.cur.2
    let k := t.core d c
    let p := k.profile c
    let e := x.encode
    let head := (if p.gen = .g2 then 0b10101 else 0b10110) * 2 ^ 27 + (if e.2.2.isSome then 2 ^ (8 + x.op.slot.val) else 0) + 2 ^ x.op.slot.val
    (s.agenda = i :: l → step s = exec i { t with agenda := l }) ∧
    (∀ e, s.agenda = [] → t.dueDie = some e → step s = exec (.schedulerPass e) t) ∧
    (s.agenda = [] → t.dueDie = none → t.awake = true → t.calm = true → k.waits = false →
      t.codeHeld d c = none → t.lineBundle d c = none → p.gen ≠ .g1 → k.pc.toNat % 4 = 0 → headBad p head = false → x.wf = true →
      t.fetchHome d c k.pc = (.ok head, t) → t.fetchHome d c (k.pc + 4) = (.ok e.2.1, t) →
      (∀ y, e.2.2 = some y → t.fetchHome d c (k.pc + 8) = (.ok y, t)) → decodeFor p x.op.slot e.2.1 e.2.2 = .ok x →
      step s = exec x.instr (t.keepCode d c (head :: e.2.1 :: e.2.2.toList)))

/-- 14_package.md R396, R397 and 11_ordering.md R320: a bundle is held for a core only under its address space, its generation and the pc; a Taproot
core that does not translate has an address space of its own (DEDUCED, log 16). Of what is held, bundles and lines, a fetch meets either all of a
bundle's words or none; nothing else that a program sees depends on the choice; and the head word and the rest of a bundle that is met are those held.
An invalidation leaves a core no translation, also none that an access may still use, no refused walk, no bundle and no line of code that it
covers. -/
def Obligations.CodeOldOrNew : Prop :=
  ∀ (s u : State) (d : Fin 4) (c : Fin 68) (cmd : TlbCmd),
    let k := s.core d c
    let t := s.settleCode d c
    let asn := if isTaproot c then (if k.tap.root.getLsbD 63 then bits k.tap.root.toNat 11 0 else 4096) else k.thr.asn
    let gen := if isTaproot c then Gen.g3 else k.thr.gen
    (∀ ws, s.codeHeld d c = some ws → ∃ e ∈ k.code.ops, e.asn = asn ∧ e.gen = gen ∧ e.va = k.pc.toNat ∧ e.words = ws) ∧
    (t.heldBundle d c = s.heldBundle d c ∨ t.heldBundle d c = s.lineBundle d c ∨ t.heldBundle d c = none) ∧
    (∃ l m, l.Sublist k.code.ops ∧ m.Sublist k.code.lines ∧ t = { s.setCore d c { k with code := ⟨l, m⟩ } with fresh := t.fresh }) ∧
    (∀ h ws, t.heldBundle d c = some (h :: ws) →
      t.fetchFirst d c = (.ok h, t) ∧ t.fetchBundle d c h = (.ok (h :: ws), t)) ∧
    (State.invalidateCore coreReg s d cmd c = some u →
      (∀ e ∈ (u.core d c).code.ops, cmd.coversCode e.asn e.va (4 * e.words.length) = false) ∧
      (∀ e ∈ (u.core d c).code.lines, cmd.coversCode e.asn e.va 64 = false) ∧ (∀ e ∈ (u.core d c).tlb, cmd.covers e = false) ∧
      (∀ e ∈ (u.core d c).tlbOld, cmd.covers e = false) ∧ (u.core d c).answers = [])

/-- 02_encodings.md R46 to R55 and Table 2-9: words of the spec's own examples and words written out from its tables decode to their
instructions, and the example with T = 13 does not. -/
def Obligations.DecodeWords : Prop :=
  let always : Guard := ⟨false, 0⟩
  decodeSlot 2 0x24062804 none = .ok ⟨always, .a (.ldspI32 6 2 true 4)⟩ ∧
  decodeSlot 3 0x02441051 none = .ok ⟨⟨false, 2⟩, .v false (.vadd 4 4 5 .i16)⟩ ∧
  decodeSlot 3 0x0244105D none = .error .badField ∧
  decodeSlot 0 0x1007FFF0 none = .ok ⟨always, .c (.pbr 1 (-16))⟩ ∧
  decodeSlot 1 0x5A031800 (some 0x00012345) = .ok ⟨always, .s (.addx 3 3 0x12345)⟩ ∧
  -- mlut acc[5, 3], h1, h2, sh1 .clr: 0x02, HT 1, HW 2, AROW 5, ACOL 3, SH 1, CLR 1
  decodeSlot 5 0b0000010_0000_0001_0010_000101_0011_01_1 none = .ok ⟨always, .m (.mlut 1 2 5 3 1 true)⟩ ∧
  -- ycopy.d.lock [a9]+=64 in slot 7: 0x01, AB 9, PI 1, LOCK 1, SC 2, VD 0
  decodeSlot 7 0b0000001_0000_1001_1_1_010_00000_0000000 none = .ok ⟨always, .y true (.ycopy 9 true true .d)⟩ ∧
  decodeSlot 1 0x00000001 none = .error .reservedBits ∧ decodeSlot 1 0x70000000 none = .error .unassigned

/-- 02_encodings.md R46 to R52: the words that the encoder gives a well-formed slot decode to that slot, every operand as it was. -/
def Obligations.DecodeEncode : Prop :=
  ∀ x : Slot, x.wf = true → decodeSlot x.encode.1 x.encode.2.1 x.encode.2.2 = .ok x

/-- Every step keeps the homes' memory, what memory itself holds under the Heartwood (00_scope.md R9), and what the model knows of other packages'
memory, in the one canonical form in which equal memories are equal data (00_scope.md R5; DESIGN CHOICE, log 2). -/
def Obligations.StepKeepsMemory : Prop :=
  ∀ (s t : State), Memory.wf s.mem = true → Memory.wf s.dram = true → Memory.wf s.fabMem = true → step s = .next t →
    Memory.wf t.mem = true ∧ Memory.wf t.dram = true ∧ Memory.wf t.fabMem = true

/-- Every step keeps every core, and every core that a record of the Nursery keeps, within its bounds: the scratchpad in its canonical form
(00_scope.md R5; DESIGN CHOICE, log 2), VL from 1 to 256 and p0 all ones (01_bundles.md R14 and Table 1-2), and no more commands in a queue than it holds
(07_matrix_ops.md R192; 08_core_memory.md R230). -/
def Obligations.StepKeepsCores : Prop :=
  ∀ (s t : State), s.coresInBounds → step s = .next t → t.coresInBounds
end

