-- ==== Sys2Proof/Laws/Issue.lean ====
section
/-! SUPPORT. What an instruction of one slot does, said once: it issues, faults or waits. -/

namespace Sys2Proof.Machine

open Sys2Proof

theorem interlocked_of_noneOwed {k : Core} (h : k.noneOwed = true) (x : Dst) : k.interlocked x = false := by
  simp only [Core.noneOwed, Bool.and_eq_true, List.all_eq_true, List.isEmpty_iff] at h
  obtain ⟨⟨⟨hm, hh⟩, hb⟩, -⟩ := h
  have h1 : k.memq.any (fun m => m.kind.dst == some x && m.handler == k.handler) = false := by
    rw [List.any_eq_false]
    intro m hmem
    have := hm m hmem
    simp only [Option.isNone_iff_eq_none] at this
    simp [this]
  simp [Core.interlocked, h1, hh, hb]

theorem room_of_noneOwed {k : Core} (h : k.noneOwed = true) : k.inFlight ≤ 56 := by
  simp only [Core.noneOwed, Bool.and_eq_true, decide_eq_true_eq] at h
  exact h.2

theorem loadRecords_append (writes : List Pend) (l m : List MemOp) :
    loadRecords writes (l ++ m) = loadRecords writes l + loadRecords writes m := by simp [loadRecords]

theorem loadRecords_le (writes : List Pend) (l : List MemOp) : loadRecords writes l ≤ l.length := List.length_filter_le _ _

/-- Entries without a result become no records. -/
theorem loadRecords_none {writes : List Pend} {l : List MemOp} (h : ∀ m ∈ l, m.kind.dst = none) : loadRecords writes l = 0 := by
  simp only [loadRecords, List.length_eq_zero_iff, List.filter_eq_nil_iff]
  intro m hm
  simp [h m hm]

/-- A bundle that adds at most eight writes and entries finds room where none is owed. -/
theorem overFull_of_noneOwed {k : Core} {a : Acc} (ho : k.noneOwed = true)
    (hn : a.pends.length + (a.eng.btoks.length - k.eng.btoks.length) + a.memq.length ≤ 8) : k.overFull a = [] := by
  have hm : ∀ m ∈ k.memq, m.kind.dst = none := by
    simp only [Core.noneOwed, Bool.and_eq_true, List.all_eq_true, Option.isNone_iff_eq_none] at ho
    exact ho.1.1.1
  have hf := room_of_noneOwed ho
  unfold Core.inFlight Core.records at hf
  have h1 : (k.pend.filter fun w => !a.stale w).length ≤ k.pend.length := List.length_filter_le _ _
  have h2 : (k.srb.filter fun w => !a.stale w).length ≤ k.srb.length := List.length_filter_le _ _
  unfold Core.overFull
  simp only
  rw [if_neg]
  have h3 := loadRecords_le ((k.pend.filter fun w => !a.stale w) ++ (k.srb.filter fun w => !a.stale w) ++ a.pends) a.memq
  rw [loadRecords_append, loadRecords_none hm]
  simp only [List.length_append]
  omega

theorem interlockWaits_of_noneOwed {k : Core} (h : k.noneOwed = true) (l : List Ready) (f : SlotOp → List Dst) : k.interlockWaits l f = [] := by
  simp [Core.interlockWaits, interlocked_of_noneOwed h]

/-- A ready slot comes as far as its own checks and effect. -/
theorem issueOne_evaluate {s : State} {x : Slot} (hr : s.ready x = true) :
    issueOne x (semOp x.op) s = .next (s.evaluate s.cur.1 s.cur.2 (s.nextPc x) [(x.op.slot.val, .ok (slotReady x))]) := by
  simp only [State.ready, Bool.and_eq_true] at hr
  obtain ⟨⟨⟨⟨haw, hcalm⟩, -⟩, hadm⟩, -⟩ := hr
  simp only [State.awake, Bool.and_eq_true, beq_iff_eq, Bool.not_eq_true', Option.isNone_iff_eq_none] at haw
  obtain ⟨⟨⟨⟨⟨⟨hp, hrun⟩, hfr⟩, hstep⟩, hso⟩, hhold⟩, hdel⟩ := haw
  simp only [State.calm, Bool.and_eq_true] at hcalm
  obtain ⟨hbound, -⟩ := hcalm
  simp only [State.admits, Bool.and_eq_true, Option.isNone_iff_eq_none] at hadm
  obtain ⟨href, -⟩ := hadm
  have hb0 : s.boundary s.cur.1 s.cur.2 true = none := by
    unfold State.boundary
    by_cases ht : isTaproot s.cur.2 = true
    · simp only [ht, if_true, Option.isNone_iff_eq_none] at hbound
      simp [ht, hbound]
    · simp only [ht] at hbound ⊢
      obtain ⟨ho, hb⟩ := Bool.and_eq_true_iff.mp hbound
      simp only [Option.isNone_iff_eq_none] at ho
      cases hh : s.here.handler <;> simp_all
  have hhead : (slotFetcher s.cur.1 s.cur.2 x (semOp x.op)).head s = (.ok 0 0 (s.nextPc x) 0, s) := rfl
  have href' : slotRefusal ((s.core s.cur.1 s.cur.2).profile s.cur.2) x = none := href
  have hrest : (slotFetcher s.cur.1 s.cur.2 x (semOp x.op)).rest 0 s = (.ok [(x.op.slot.val, .ok (slotReady x))], s) := by
    simp only [slotFetcher, href']; rfl
  have hpd : s.passDelay s.cur.1 s.cur.2 = s := by
    have hdel' : (s.core s.cur.1 s.cur.2).delay = 0 := hdel
    unfold State.passDelay; rw [if_pos hdel']
  have hrun' : (s.core s.cur.1 s.cur.2).run = .running := hrun
  have hfr' : (s.core s.cur.1 s.cur.2).dbg.frozen = false := hfr
  have hstep' : (s.core s.cur.1 s.cur.2).dbg.stepping = false := hstep
  have hso' : (s.core s.cur.1 s.cur.2).dbg.stepOver = none := hso
  have hgo : issueWith (slotFetcher s.cur.1 s.cur.2 x (semOp x.op)) s.cur.1 s.cur.2 s =
      s.evaluate s.cur.1 s.cur.2 (s.nextPc x) [(x.op.slot.val, .ok (slotReady x))] := by
    unfold issueWith attempt
    simp only [hrun', hfr', hstep', hso', hhold, hpd, hhead, hrest, Core.skips, State.passStall, hb0, Option.any_none, ne_eq, not_true_eq_false,
      decide_false, Bool.or_self, Bool.false_and, Bool.false_eq_true, if_false, Bool.or_false, if_true, ite_self]
  simp [issueOne, powered, hp, hgo]

/-- The slots of a bundle that holds one that takes part. -/
theorem evaluate_live {s : State} {x : Slot} (hr : s.ready x = true) :
    s.evaluate s.cur.1 s.cur.2 (s.nextPc x) [(x.op.slot.val, .ok (slotReady x))] =
      match (semOp x.op).body (s.envFor x) s.blank with
      | .fault f a => a.st.faultTrap s.cur.1 s.cur.2 (State.evaluate.sortFaults [(x.op.slot.val, f)]) true
      | .ok a =>
        let k := a.st.core s.cur.1 s.cur.2
        match k.addrBreak with
        | some i => a.st.breakAt s.cur.1 s.cur.2 i true
        | none =>
          match k.interlockWaits [slotReady x] SlotOp.dsts ++ a.waits ++ k.overFull a with
          | w :: _ => a.st.modCore s.cur.1 s.cur.2 fun k =>
              { k.wait { w with since := a.st.hub.ptime.toNat } with stallTaken := true }
          | [] => s.issued x a := by
  simp only [State.ready, Bool.and_eq_true] at hr
  obtain ⟨⟨⟨-, howed⟩, hadm⟩, htakes⟩ := hr
  simp only [State.admits, Bool.and_eq_true, Bool.not_eq_true'] at hadm
  obtain ⟨-, hill⟩ := hadm
  have hact : s.here.active (slotReady x) = some true := by simpa [State.takes] using htakes
  have hill' : (slotReady x).op.illegal (envOf s s.cur.1 s.cur.2 (s.nextPc x) (slotReady x)) = false := hill
  have hlive : (s.core s.cur.1 s.cur.2).liveSlots [slotReady x] = [slotReady x] := by
    unfold Core.liveSlots; rw [List.filter_cons, hact]; rfl
  have hdiv : (s.core s.cur.1 s.cur.2).diverging [slotReady x] = [] := by
    unfold Core.diverging; rw [List.filterMap_cons, hact]; rfl
  have hready : ([(x.op.slot.val, .ok (slotReady x))] : List (Nat × Except Cause Ready)).filterMap (fun x => x.2.toOption) = [slotReady x] := rfl
  have hw0 (l : List Ready) (f : SlotOp → List Dst) : (s.core s.cur.1 s.cur.2).interlockWaits l f = [] := interlockWaits_of_noneOwed howed l f
  unfold State.evaluate
  simp only [hready, hlive, hdiv, hw0]
  simp only [List.filterMap_cons, List.filterMap_nil, hill', Bool.false_eq_true, if_false, List.flatMap_cons, List.flatMap_nil, List.append_nil, hw0]
  have hrun (a : Acc) : runSlots s s.cur.1 s.cur.2 (s.nextPc x) [slotReady x] a [] =
      match (semOp x.op).body (s.envFor x) a with
      | .ok a => (a, [])
      | .fault f a => (a, [(x.op.slot.val, f)]) := by
    simp only [runSlots]; rfl
  rw [hrun]
  show _ = match (semOp x.op).body (s.envFor x) s.blank with | .fault f a => _ | .ok a => _
  simp only [State.blank]
  cases (semOp x.op).body (s.envFor x) (accOf s s.cur.1 s.cur.2) with
  | ok a =>
    simp only [List.flatMap_cons, List.flatMap_nil, List.append_nil]
    rfl
  | fault f a =>
    obtain ⟨l, hl⟩ : ∃ l, State.evaluate.sortFaults ([] ++ [(x.op.slot.val, f)]) = l := ⟨_, rfl⟩
    have hne : l = [(x.op.slot.val, f)] := by
      rw [← hl, List.nil_append]
      cases x.op <;> first | rfl | (rename_i u _; cases u <;> rfl)
    subst hne
    simp only [hl]
    rw [List.nil_append] at hl
    rw [hl]

theorem addrBreak_of_ready {s : State} {x : Slot} (hr : s.ready x = true) : s.here.addrBreak = none := by
  simp only [State.ready, State.calm, Bool.and_eq_true, Option.isNone_iff_eq_none] at hr
  exact hr.1.1.1.2.2

theorem noneOwed_of_ready {s : State} {x : Slot} (hr : s.ready x = true) : s.here.noneOwed = true := by
  simp only [State.ready, Bool.and_eq_true] at hr
  exact hr.1.1.2

/-- A ready slot whose body answers `a` without a wait issues; `a.st` may differ from `s` in caches and tables. -/
theorem issueOne_issues {s : State} {x : Slot} {a : Acc} (hr : s.ready x = true)
    (hb : (semOp x.op).body (s.envFor x) s.blank = .ok a) (hab : (a.st.core s.cur.1 s.cur.2).addrBreak = none)
    (ho : (a.st.core s.cur.1 s.cur.2).noneOwed = true) (hw : a.waits = [])
    (hn : a.pends.length + (a.eng.btoks.length - (a.st.core s.cur.1 s.cur.2).eng.btoks.length) + a.memq.length ≤ 8) :
    issueOne x (semOp x.op) s = .next (s.issued x a) := by
  rw [issueOne_evaluate hr, evaluate_live hr, hb]
  simp only [hab, interlockWaits_of_noneOwed ho, hw, overFull_of_noneOwed ho hn, List.append_nil]

/-- A ready slot whose body answers `a` without a wait, on the state it found, issues. -/
theorem issueOne_ready {s : State} {x : Slot} {a : Acc} (hr : s.ready x = true)
    (hb : (semOp x.op).body (s.envFor x) s.blank = .ok a) (hst : a.st = s) (hw : a.waits = [])
    (hn : a.pends.length + (a.eng.btoks.length - s.here.eng.btoks.length) + a.memq.length ≤ 8) :
    issueOne x (semOp x.op) s = .next (s.issued x a) := by
  subst hst
  exact issueOne_issues hr hb (addrBreak_of_ready hr) (noneOwed_of_ready hr) hw hn

/-- A ready slot whose body asks for a wait does not issue. -/
theorem issueOne_waits {s : State} {x : Slot} {a : Acc} {w : WaitInfo} {l : List WaitInfo} (hr : s.ready x = true)
    (hb : (semOp x.op).body (s.envFor x) s.blank = .ok a) (hst : a.st = s)
    (hw : a.waits = w :: l) :
    issueOne x (semOp x.op) s = .next (s.setCore s.cur.1 s.cur.2
      { s.here.wait { w with since := s.hub.ptime.toNat } with stallTaken := true }) := by
  rw [issueOne_evaluate hr, evaluate_live hr, hb]
  have hab : (s.core s.cur.1 s.cur.2).addrBreak = none := addrBreak_of_ready hr
  have ho : (s.core s.cur.1 s.cur.2).noneOwed = true := noneOwed_of_ready hr
  simp only [hst, hab, interlockWaits_of_noneOwed ho, hw, List.nil_append, List.cons_append]
  rfl

/-- A ready slot whose body faults is trapped. -/
theorem issueOne_faults {s : State} {x : Slot} {a : Acc} {f : SlotFault} (hr : s.ready x = true)
    (hb : (semOp x.op).body (s.envFor x) s.blank = .fault f a) (hst : a.st = s) :
    issueOne x (semOp x.op) s = .next (s.faultTrap s.cur.1 s.cur.2 [(x.op.slot.val, f)] true) := by
  rw [issueOne_evaluate hr, evaluate_live hr, hb]
  have hs : State.evaluate.sortFaults [(x.op.slot.val, f)] = [(x.op.slot.val, f)] := by
    cases x.op <;> first | rfl | (rename_i u _; cases u <;> rfl)
  simp only [hs, hst]

end Sys2Proof.Machine
end

