-- ==== Sys2Proof/Laws/Exec.lean ====
section
/-! SUPPORT. The instruction of a slot is the issue of a bundle that holds that slot alone. -/

namespace Sys2Proof.Machine

open Sys2Proof

theorem wf_of_ready {s : State} {x : Slot} (h : s.ready x = true) : x.wf = true := by
  simp only [State.ready, State.admits, Bool.and_eq_true, Option.isNone_iff_eq_none] at h
  obtain ⟨⟨-, hr, -⟩, -⟩ := h
  unfold slotRefusal at hr
  simp only at hr
  split at hr
  · simp at hr
  · split at hr
    · simp at hr
    · split at hr
      · assumption
      · simp at hr

theorem exec_control (g : Guard) (o : ControlOp) (s : State) (h : Slot.wf ⟨g, .c o⟩ = true) :
    exec (Slot.instr ⟨g, .c o⟩) s = issueOne ⟨g, .c o⟩ (semControl o) s := by
  cases o
  case cnop => simp only [Slot.wf, decide_eq_true_eq] at h; subst h; rfl
  all_goals rfl

theorem exec_scalar (g : Guard) (o : ScalarOp) (s : State) (h : Slot.wf ⟨g, .s o⟩ = true) :
    exec (Slot.instr ⟨g, .s o⟩) s = issueOne ⟨g, .s o⟩ (semScalar o) s := by
  cases o
  case snop => simp only [Slot.wf, decide_eq_true_eq] at h; subst h; rfl
  all_goals rfl

theorem exec_address (g : Guard) (o : AddressOp) (s : State) (h : Slot.wf ⟨g, .a o⟩ = true) :
    exec (Slot.instr ⟨g, .a o⟩) s = issueOne ⟨g, .a o⟩ (semAddress o) s := by
  cases o
  case anop => simp only [Slot.wf, decide_eq_true_eq] at h; subst h; rfl
  all_goals rfl

theorem exec_vector (g : Guard) (u : Bool) (o : VectorOp) (s : State) (h : Slot.wf ⟨g, .v u o⟩ = true) :
    exec (Slot.instr ⟨g, .v u o⟩) s = issueOne ⟨g, .v u o⟩ (semVector o) s := by
  cases o
  case vnop => simp only [Slot.wf, decide_eq_true_eq] at h; subst h; rfl
  all_goals rfl

theorem exec_matrix (g : Guard) (o : MatrixOp) (s : State) (h : Slot.wf ⟨g, .m o⟩ = true) :
    exec (Slot.instr ⟨g, .m o⟩) s = issueOne ⟨g, .m o⟩ (semMatrix o) s := by
  cases o
  case mnop => simp only [Slot.wf, decide_eq_true_eq] at h; subst h; rfl
  all_goals rfl

theorem exec_copy (g : Guard) (u : Bool) (o : CopyOp) (s : State) (h : Slot.wf ⟨g, .y u o⟩ = true) :
    exec (Slot.instr ⟨g, .y u o⟩) s = issueOne ⟨g, .y u o⟩ (semCopy u o) s := by
  cases o
  case ynop => simp only [Slot.wf, decide_eq_true_eq] at h; subst h; rfl
  all_goals rfl

/-- Executing the instruction of a well-formed slot. -/
theorem exec_slot (x : Slot) (s : State) (h : x.wf = true) : exec x.instr s = issueOne x (semOp x.op) s := by
  obtain ⟨g, o⟩ := x
  cases o
  case c o => exact exec_control g o s h
  case s o => exact exec_scalar g o s h
  case a o => exact exec_address g o s h
  case v u o => exact exec_vector g u o s h
  case m o => exact exec_matrix g o s h
  case y u o => exact exec_copy g u o s h

/-- A ready slot whose body answers `a` without a wait, on the state it found, and pends no BTOK: its instruction issues. -/
theorem exec_ready {s : State} {x : Slot} {a : Acc} (hr : s.ready x = true)
    (hb : (semOp x.op).body (s.envFor x) s.blank = .ok a) (hst : a.st = s) (hw : a.waits = [])
    (he : a.eng.btoks = s.here.eng.btoks) (hn : a.pends.length + a.memq.length ≤ 8) :
    exec x.instr s = .next (s.issued x a) := by
  rw [exec_slot x s (wf_of_ready hr)]
  exact issueOne_ready hr hb hst hw (by rw [he, Nat.sub_self]; exact hn)

/-- The instruction of a ready slot whose body faults is trapped. -/
theorem exec_faults {s : State} {x : Slot} {a : Acc} {f : SlotFault} (hr : s.ready x = true)
    (hb : (semOp x.op).body (s.envFor x) s.blank = .fault f a) (hst : a.st = s) :
    exec x.instr s = .next (s.faultTrap s.cur.1 s.cur.2 [(x.op.slot.val, f)] true) := by
  rw [exec_slot x s (wf_of_ready hr)]
  exact issueOne_faults hr hb hst

/-- The instruction of a ready slot whose body asks for a wait does not issue. -/
theorem exec_waits {s : State} {x : Slot} {a : Acc} {w : WaitInfo} {l : List WaitInfo} (hr : s.ready x = true)
    (hb : (semOp x.op).body (s.envFor x) s.blank = .ok a) (hst : a.st = s) (hw : a.waits = w :: l) :
    exec x.instr s = .next (s.setCore s.cur.1 s.cur.2
      { s.here.wait { w with since := s.hub.ptime.toNat } with stallTaken := true }) := by
  rw [exec_slot x s (wf_of_ready hr)]
  exact issueOne_waits hr hb hst hw

end Sys2Proof.Machine
end

