-- ==== Sys2Proof/Laws/State.lean ====
section
/-! SUPPORT. What each update of the state leaves of each field. -/

namespace Sys2Proof.Machine

open Sys2Proof

@[simp] theorem setDie_hub (s : State) (d : Fin 4) (x : Die) : (s.setDie d x).hub = s.hub := rfl
@[simp] theorem setDie_mem (s : State) (d : Fin 4) (x : Die) : (s.setDie d x).mem = s.mem := rfl
@[simp] theorem setDie_poison (s : State) (d : Fin 4) (x : Die) : (s.setDie d x).poison = s.poison := rfl
@[simp] theorem setDie_dram (s : State) (d : Fin 4) (x : Die) : (s.setDie d x).dram = s.dram := rfl
@[simp] theorem setDie_dramPoison (s : State) (d : Fin 4) (x : Die) : (s.setDie d x).dramPoison = s.dramPoison := rfl
@[simp] theorem setDie_fabMem (s : State) (d : Fin 4) (x : Die) : (s.setDie d x).fabMem = s.fabMem := rfl
@[simp] theorem setDie_late (s : State) (d : Fin 4) (x : Die) : (s.setDie d x).late = s.late := rfl
@[simp] theorem setDie_power (s : State) (d : Fin 4) (x : Die) : (s.setDie d x).power = s.power := rfl
@[simp] theorem setDie_agenda (s : State) (d : Fin 4) (x : Die) : (s.setDie d x).agenda = s.agenda := rfl
@[simp] theorem setDie_env (s : State) (d : Fin 4) (x : Die) : (s.setDie d x).env = s.env := rfl
@[simp] theorem setDie_cur (s : State) (d : Fin 4) (x : Die) : (s.setDie d x).cur = s.cur := rfl
@[simp] theorem setDie_fresh (s : State) (d : Fin 4) (x : Die) : (s.setDie d x).fresh = s.fresh := rfl
@[simp] theorem setDie_cfg (s : State) (d : Fin 4) (x : Die) : (s.setDie d x).cfg = s.cfg := rfl

@[simp] theorem setCore_hub (s : State) (d : Fin 4) (c : Fin 68) (k : Core) : (s.setCore d c k).hub = s.hub := rfl
@[simp] theorem setCore_mem (s : State) (d : Fin 4) (c : Fin 68) (k : Core) : (s.setCore d c k).mem = s.mem := rfl
@[simp] theorem setCore_poison (s : State) (d : Fin 4) (c : Fin 68) (k : Core) : (s.setCore d c k).poison = s.poison := rfl
@[simp] theorem setCore_dram (s : State) (d : Fin 4) (c : Fin 68) (k : Core) : (s.setCore d c k).dram = s.dram := rfl
@[simp] theorem setCore_dramPoison (s : State) (d : Fin 4) (c : Fin 68) (k : Core) : (s.setCore d c k).dramPoison = s.dramPoison := rfl
@[simp] theorem setCore_fabMem (s : State) (d : Fin 4) (c : Fin 68) (k : Core) : (s.setCore d c k).fabMem = s.fabMem := rfl
@[simp] theorem setCore_late (s : State) (d : Fin 4) (c : Fin 68) (k : Core) : (s.setCore d c k).late = s.late := rfl
@[simp] theorem setCore_power (s : State) (d : Fin 4) (c : Fin 68) (k : Core) : (s.setCore d c k).power = s.power := rfl
@[simp] theorem setCore_agenda (s : State) (d : Fin 4) (c : Fin 68) (k : Core) : (s.setCore d c k).agenda = s.agenda := rfl
@[simp] theorem setCore_env (s : State) (d : Fin 4) (c : Fin 68) (k : Core) : (s.setCore d c k).env = s.env := rfl
@[simp] theorem setCore_cur (s : State) (d : Fin 4) (c : Fin 68) (k : Core) : (s.setCore d c k).cur = s.cur := rfl
@[simp] theorem setCore_fresh (s : State) (d : Fin 4) (c : Fin 68) (k : Core) : (s.setCore d c k).fresh = s.fresh := rfl
@[simp] theorem setCore_cfg (s : State) (d : Fin 4) (c : Fin 68) (k : Core) : (s.setCore d c k).cfg = s.cfg := rfl

@[simp] theorem modHub_dies (s : State) (f : Hub → Hub) : (s.modHub f).dies = s.dies := rfl
@[simp] theorem modHub_mem (s : State) (f : Hub → Hub) : (s.modHub f).mem = s.mem := rfl
@[simp] theorem modHub_poison (s : State) (f : Hub → Hub) : (s.modHub f).poison = s.poison := rfl
@[simp] theorem modHub_dram (s : State) (f : Hub → Hub) : (s.modHub f).dram = s.dram := rfl
@[simp] theorem modHub_dramPoison (s : State) (f : Hub → Hub) : (s.modHub f).dramPoison = s.dramPoison := rfl
@[simp] theorem modHub_fabMem (s : State) (f : Hub → Hub) : (s.modHub f).fabMem = s.fabMem := rfl
@[simp] theorem modHub_late (s : State) (f : Hub → Hub) : (s.modHub f).late = s.late := rfl
@[simp] theorem modHub_power (s : State) (f : Hub → Hub) : (s.modHub f).power = s.power := rfl
@[simp] theorem modHub_agenda (s : State) (f : Hub → Hub) : (s.modHub f).agenda = s.agenda := rfl
@[simp] theorem modHub_env (s : State) (f : Hub → Hub) : (s.modHub f).env = s.env := rfl
@[simp] theorem modHub_cur (s : State) (f : Hub → Hub) : (s.modHub f).cur = s.cur := rfl
@[simp] theorem modHub_fresh (s : State) (f : Hub → Hub) : (s.modHub f).fresh = s.fresh := rfl
@[simp] theorem modHub_cfg (s : State) (f : Hub → Hub) : (s.modHub f).cfg = s.cfg := rfl
@[simp] theorem modHub_hub (s : State) (f : Hub → Hub) : (s.modHub f).hub = f s.hub := rfl

@[simp] theorem dieSetCore_l2 (x : Die) (c : Fin 68) (k : Core) : (x.setCore c k).l2 = x.l2 := rfl
@[simp] theorem dieSetCore_pinned (x : Die) (c : Fin 68) (k : Core) : (x.setCore c k).pinned = x.pinned := rfl
@[simp] theorem dieSetCore_spread (x : Die) (c : Fin 68) (k : Core) : (x.setCore c k).spread = x.spread := rfl
@[simp] theorem dieSetCore_hwpin (x : Die) (c : Fin 68) (k : Core) : (x.setCore c k).hwpin = x.hwpin := rfl
@[simp] theorem dieSetCore_pinOvf (x : Die) (c : Fin 68) (k : Core) : (x.setCore c k).pinOvf = x.pinOvf := rfl
@[simp] theorem dieSetCore_tlbEnd (x : Die) (c : Fin 68) (k : Core) : (x.setCore c k).tlbEnd = x.tlbEnd := rfl
@[simp] theorem dieSetCore_tlbSeq (x : Die) (c : Fin 68) (k : Core) : (x.setCore c k).tlbSeq = x.tlbSeq := rfl
@[simp] theorem dieSetCore_tlbDone (x : Die) (c : Fin 68) (k : Core) : (x.setCore c k).tlbDone = x.tlbDone := rfl
@[simp] theorem dieSetCore_tlbCmds (x : Die) (c : Fin 68) (k : Core) : (x.setCore c k).tlbCmds = x.tlbCmds := rfl
@[simp] theorem dieSetCore_pgq (x : Die) (c : Fin 68) (k : Core) : (x.setCore c k).pgq = x.pgq := rfl
@[simp] theorem dieSetCore_pfq (x : Die) (c : Fin 68) (k : Core) : (x.setCore c k).pfq = x.pfq := rfl
@[simp] theorem dieSetCore_sevq (x : Die) (c : Fin 68) (k : Core) : (x.setCore c k).sevq = x.sevq := rfl
@[simp] theorem dieSetCore_mcq (x : Die) (c : Fin 68) (k : Core) : (x.setCore c k).mcq = x.mcq := rfl
@[simp] theorem dieSetCore_pager (x : Die) (c : Fin 68) (k : Core) : (x.setCore c k).pager = x.pager := rfl
@[simp] theorem dieSetCore_nextTag (x : Die) (c : Fin 68) (k : Core) : (x.setCore c k).nextTag = x.nextTag := rfl
@[simp] theorem dieSetCore_events (x : Die) (c : Fin 68) (k : Core) : (x.setCore c k).events = x.events := rfl
@[simp] theorem dieSetCore_atDom (x : Die) (c : Fin 68) (k : Core) : (x.setCore c k).atDom = x.atDom := rfl
@[simp] theorem dieSetCore_atDef (x : Die) (c : Fin 68) (k : Core) : (x.setCore c k).atDef = x.atDef := rfl
@[simp] theorem dieSetCore_atLock (x : Die) (c : Fin 68) (k : Core) : (x.setCore c k).atLock = x.atLock := rfl
@[simp] theorem dieSetCore_atLog (x : Die) (c : Fin 68) (k : Core) : (x.setCore c k).atLog = x.atLog := rfl
@[simp] theorem dieSetCore_atCnt (x : Die) (c : Fin 68) (k : Core) : (x.setCore c k).atCnt = x.atCnt := rfl
@[simp] theorem dieSetCore_atReg (x : Die) (c : Fin 68) (k : Core) : (x.setCore c k).atReg = x.atReg := rfl
@[simp] theorem dieSetCore_spPerm (x : Die) (c : Fin 68) (k : Core) : (x.setCore c k).spPerm = x.spPerm := rfl
@[simp] theorem dieSetCore_ebudget (x : Die) (c : Fin 68) (k : Core) : (x.setCore c k).ebudget = x.ebudget := rfl
@[simp] theorem dieSetCore_eused (x : Die) (c : Fin 68) (k : Core) : (x.setCore c k).eused = x.eused := rfl
@[simp] theorem dieSetCore_etotal (x : Die) (c : Fin 68) (k : Core) : (x.setCore c k).etotal = x.etotal := rfl
@[simp] theorem dieSetCore_ecore (x : Die) (c : Fin 68) (k : Core) : (x.setCore c k).ecore = x.ecore := rfl
@[simp] theorem dieSetCore_ethrot (x : Die) (c : Fin 68) (k : Core) : (x.setCore c k).ethrot = x.ethrot := rfl
@[simp] theorem dieSetCore_hardHold (x : Die) (c : Fin 68) (k : Core) : (x.setCore c k).hardHold = x.hardHold := rfl
@[simp] theorem dieSetCore_softLow (x : Die) (c : Fin 68) (k : Core) : (x.setCore c k).softLow = x.softLow := rfl
@[simp] theorem dieSetCore_thermHold (x : Die) (c : Fin 68) (k : Core) : (x.setCore c k).thermHold = x.thermHold := rfl
@[simp] theorem dieSetCore_thermLow (x : Die) (c : Fin 68) (k : Core) : (x.setCore c k).thermLow = x.thermLow := rfl
@[simp] theorem dieSetCore_nurBase (x : Die) (c : Fin 68) (k : Core) : (x.setCore c k).nurBase = x.nurBase := rfl
@[simp] theorem dieSetCore_schedCfg (x : Die) (c : Fin 68) (k : Core) : (x.setCore c k).schedCfg = x.schedCfg := rfl
@[simp] theorem dieSetCore_recs (x : Die) (c : Fin 68) (k : Core) : (x.setCore c k).recs = x.recs := rfl
@[simp] theorem dieSetCore_admSum (x : Die) (c : Fin 68) (k : Core) : (x.setCore c k).admSum = x.admSum := rfl
@[simp] theorem dieSetCore_mcLost (x : Die) (c : Fin 68) (k : Core) : (x.setCore c k).mcLost = x.mcLost := rfl
@[simp] theorem dieSetCore_trSoft (x : Die) (c : Fin 68) (k : Core) : (x.setCore c k).trSoft = x.trSoft := rfl
@[simp] theorem dieSetCore_ceCnt (x : Die) (c : Fin 68) (k : Core) : (x.setCore c k).ceCnt = x.ceCnt := rfl
@[simp] theorem dieSetCore_l2ce (x : Die) (c : Fin 68) (k : Core) : (x.setCore c k).l2ce = x.l2ce := rfl
@[simp] theorem dieSetCore_scrub (x : Die) (c : Fin 68) (k : Core) : (x.setCore c k).scrub = x.scrub := rfl
@[simp] theorem dieSetCore_trStart (x : Die) (c : Fin 68) (k : Core) : (x.setCore c k).trStart = x.trStart := rfl
@[simp] theorem dieSetCore_shadow (x : Die) (c : Fin 68) (k : Core) : (x.setCore c k).shadow = x.shadow := rfl
@[simp] theorem dieSetCore_bridge (x : Die) (c : Fin 68) (k : Core) : (x.setCore c k).bridge = x.bridge := rfl
@[simp] theorem dieSetCore_misses (x : Die) (c : Fin 68) (k : Core) : (x.setCore c k).misses = x.misses := rfl
@[simp] theorem dieSetCore_lastWalk (x : Die) (c : Fin 68) (k : Core) : (x.setCore c k).lastWalk = x.lastWalk := rfl
@[simp] theorem dieSetCore_passDue (x : Die) (c : Fin 68) (k : Core) : (x.setCore c k).passDue = x.passDue := rfl

@[simp] theorem modCore_eq (s : State) (d : Fin 4) (c : Fin 68) (f : Core → Core) : s.modCore d c f = s.setCore d c (f (s.core d c)) := rfl

@[simp] theorem modDie_eq (s : State) (d : Fin 4) (f : Die → Die) : s.modDie d f = s.setDie d (f (s.die d)) := rfl

@[simp] theorem die_setDie_same (s : State) (d : Fin 4) (x : Die) : (s.setDie d x).die d = x := by
  simp [State.setDie, State.die]

theorem die_setDie_ne (s : State) {d e : Fin 4} (x : Die) (h : d ≠ e) : (s.setDie d x).die e = s.die e := by
  simp only [State.setDie, State.die, Fin.getElem_fin, Vector.getElem_set]
  rw [if_neg fun h' => h (Fin.ext h')]

@[simp] theorem die_modHub (s : State) (f : Hub → Hub) (d : Fin 4) : (s.modHub f).die d = s.die d := rfl

@[simp] theorem core_modHub (s : State) (f : Hub → Hub) (d : Fin 4) (c : Fin 68) : (s.modHub f).core d c = s.core d c := rfl

@[simp] theorem core_setCore_same (s : State) (d : Fin 4) (c : Fin 68) (k : Core) : (s.setCore d c k).core d c = k := by
  simp [State.setCore, State.setDie, State.core, State.die, Die.setCore]

theorem core_setCore_ne (s : State) {d e : Fin 4} {c b : Fin 68} (k : Core) (h : (d, c) ≠ (e, b)) :
    (s.setCore d c k).core e b = s.core e b := by
  show ((s.setDie d _).die e).cores[b] = (s.die e).cores[b]
  by_cases hd : d = e
  · subst hd
    have hc : c.val ≠ b.val := fun hc => h (by rw [Fin.ext hc])
    rw [die_setDie_same]
    simp only [Die.setCore, Fin.getElem_fin]
    exact Vector.getElem_set_ne _ _ hc
  · rw [die_setDie_ne s _ hd]

theorem dieSetCore_core (x : Die) (c : Fin 68) : x.setCore c x.cores[c] = x := by
  simp [Die.setCore]

theorem setDie_die (s : State) (d : Fin 4) : s.setDie d (s.die d) = s := by
  simp [State.setDie, State.die]

@[simp] theorem setCore_core (s : State) (d : Fin 4) (c : Fin 68) : s.setCore d c (s.core d c) = s := by
  show s.setDie d ((s.die d).setCore c (s.die d).cores[c]) = s
  rw [dieSetCore_core, setDie_die]

@[simp] theorem setCore_setCore (s : State) (d : Fin 4) (c : Fin 68) (k l : Core) : (s.setCore d c k).setCore d c l = s.setCore d c l := by
  simp [State.setCore, State.setDie, State.die, Die.setCore]

@[simp] theorem setDie_setDie (s : State) (d : Fin 4) (x y : Die) : (s.setDie d x).setDie d y = s.setDie d y := by
  simp [State.setDie]

theorem die_setCore_same (s : State) (d : Fin 4) (c : Fin 68) (k : Core) : (s.setCore d c k).die d = (s.die d).setCore c k := by
  simp [State.setCore]

theorem die_setCore_ne (s : State) {d e : Fin 4} (c : Fin 68) (k : Core) (h : d ≠ e) : (s.setCore d c k).die e = s.die e :=
  die_setDie_ne s _ h

/-- An update of one core leaves every field of every die but `cores`. -/
theorem die_setCore_field {α : Type} (f : Die → α) (hf : ∀ (x : Die) c k, f (x.setCore c k) = f x) (s : State) (d e : Fin 4) (c : Fin 68) (k : Core) :
    f ((s.setCore d c k).die e) = f (s.die e) := by
  by_cases h : d = e
  · subst h; rw [die_setCore_same, hf]
  · rw [die_setCore_ne s c k h]

@[simp] theorem slice_setCore (s : State) (d e : Fin 4) (c : Fin 68) (k : Core) (n : Nat) : (s.setCore d c k).slice e n = s.slice e n :=
  die_setCore_field (fun x => x.l2.getD n .empty) (fun _ _ _ => rfl) s d e c k

theorem core_setDie_cores (s : State) (d e : Fin 4) (c : Fin 68) (x : Die) (h : x.cores = (s.die d).cores) :
    (s.setDie d x).core e c = s.core e c := by
  by_cases hd : d = e
  · subst hd
    show ((s.setDie d x).die d).cores[c] = (s.die d).cores[c]
    rw [die_setDie_same, h]
  · show ((s.setDie d x).die e).cores[c] = (s.die e).cores[c]
    rw [die_setDie_ne s x hd]

@[simp] theorem core_setSlice (s : State) (d e : Fin 4) (n : Nat) (x : L2Slice) (c : Fin 68) : (s.setSlice d n x).core e c = s.core e c := by
  unfold State.setSlice; rw [modDie_eq]; exact core_setDie_cores s d e c _ rfl

end Sys2Proof.Machine
end

