-- ==== Sys2Proof/Laws/Code.lean ====
section
/-! SUPPORT. The decoded-operation cache, and the issue of what a fetcher fetches, said once (11_ordering.md R320; 14_package.md R396). -/

namespace Sys2Proof.Machine

open Sys2Proof

/-- Nothing comes before the bundle of a calm core. -/
theorem boundary_of_calm {s : State} (hc : s.calm = true) : s.boundary s.cur.1 s.cur.2 true = none := by
  simp only [State.calm, Bool.and_eq_true] at hc
  obtain ⟨hbound, -⟩ := hc
  unfold State.boundary
  by_cases ht : isTaproot s.cur.2 = true
  · simp only [ht, if_true, Option.isNone_iff_eq_none] at hbound
    simp [ht, hbound]
  · simp only [ht] at hbound ⊢
    obtain ⟨ho, hb⟩ := Bool.and_eq_true_iff.mp hbound
    simp only [Option.isNone_iff_eq_none] at ho
    cases hh : s.here.handler <;> simp_all

/-- An awake and calm core evaluates what its fetcher gives it. -/
theorem issueWith_evaluate {f : Fetcher} {s t : State} {next : W64} {word : Nat} {slots : List (Nat × Except Cause Ready)} (hw : s.awake = true)
    (hc : s.calm = true) (hh : f.head s = (.ok 0 0 next word, s)) (hr : f.rest word s = (.ok slots, t)) :
    issueWith f s.cur.1 s.cur.2 s = t.evaluate s.cur.1 s.cur.2 next slots := by
  simp only [State.awake, Bool.and_eq_true, beq_iff_eq, Bool.not_eq_true', Option.isNone_iff_eq_none] at hw
  obtain ⟨⟨⟨⟨⟨⟨-, hrun⟩, hfr⟩, hstep⟩, hso⟩, hhold⟩, hdel⟩ := hw
  have hpd : s.passDelay s.cur.1 s.cur.2 = s := by
    have hdel' : (s.core s.cur.1 s.cur.2).delay = 0 := hdel
    unfold State.passDelay; rw [if_pos hdel']
  have hrun' : (s.core s.cur.1 s.cur.2).run = .running := hrun
  have hfr' : (s.core s.cur.1 s.cur.2).dbg.frozen = false := hfr
  have hstep' : (s.core s.cur.1 s.cur.2).dbg.stepping = false := hstep
  have hso' : (s.core s.cur.1 s.cur.2).dbg.stepOver = none := hso
  unfold issueWith attempt
  simp only [hrun', hfr', hstep', hso', hhold, hpd, hh, hr, Core.skips, State.passStall, boundary_of_calm hc, Option.any_none, ne_eq,
    not_true_eq_false, decide_false, Bool.or_self, Bool.false_and, Bool.false_eq_true, if_false, Bool.or_false, if_true, ite_self]

/-- The cache takes a bundle in, or stays as it is; nothing else changes. -/
theorem keepCode_eq (s : State) (d : Fin 4) (c : Fin 68) (ws : List Nat) :
    ∃ l, s.keepCode d c ws = s.setCore d c { s.core d c with code := l } := by
  unfold State.keepCode
  split
  · exact ⟨(s.core d c).code, (setCore_core s d c).symm⟩
  · exact ⟨_, rfl⟩

/-- Where no bundle is held, or the lines of bytes have what the homes have, a fetch leaves the device as it is. -/
theorem settleCode_none {s : State} {d : Fin 4} {c : Fin 68} (h : s.codeHeld d c = none) (hl : ∀ ws, s.lineBundle d c = some ws → s.homeHas d c ws = true) :
    s.settleCode d c = s := by
  have ho : s.settleOps d c = s := by unfold State.settleOps; rw [h]; rfl
  unfold State.settleCode
  split
  · rfl
  · rw [ho]
    unfold State.settleLines State.heldBundle
    rw [h]
    cases hb : s.lineBundle d c with
    | none => rfl
    | some ws => simp [hl ws hb]

/-- A fetch leaves the bundles and lines held, or drops those that it would have met. -/
theorem settleCode_eq (s : State) (d : Fin 4) (c : Fin 68) :
    ∃ l m, l.Sublist (s.core d c).code.ops ∧ m.Sublist (s.core d c).code.lines ∧ s.settleCode d c =
      { s.setCore d c { s.core d c with code := ⟨l, m⟩ } with fresh := (s.settleCode d c).fresh } := by
  have ops : ∃ l, l.Sublist (s.core d c).code.ops ∧ s.settleOps d c =
      { s.setCore d c { s.core d c with code := { (s.core d c).code with ops := l } } with fresh := (s.settleOps d c).fresh } := by
    unfold State.settleOps
    split
    · exact ⟨_, List.Sublist.refl _, by rw [setCore_core]⟩
    · split
      · exact ⟨_, List.Sublist.refl _, by rw [setCore_core]⟩
      · exact ⟨_, List.filter_sublist, rfl⟩
  have lines (t : State) : ∃ m, m.Sublist (t.core d c).code.lines ∧ t.settleLines d c =
      { t.setCore d c { t.core d c with code := { (t.core d c).code with lines := m } } with fresh := (t.settleLines d c).fresh } := by
    unfold State.settleLines
    split
    · exact ⟨_, List.Sublist.refl _, by rw [setCore_core]⟩
    · split
      · exact ⟨_, List.Sublist.refl _, by rw [setCore_core]⟩
      · split
        · exact ⟨_, List.Sublist.refl _, by rw [setCore_core]⟩
        · exact ⟨_, List.filter_sublist, rfl⟩
  unfold State.settleCode
  split
  · exact ⟨_, _, List.Sublist.refl _, List.Sublist.refl _, by rw [setCore_core]⟩
  · obtain ⟨l, hl, h1⟩ := ops
    obtain ⟨m, hm, h2⟩ := lines (s.settleOps d c)
    have hc : (s.settleOps d c).core d c = { s.core d c with code := { (s.core d c).code with ops := l } } := by
      rw [h1]; exact core_setCore_same _ _ _ _
    rw [hc] at hm h2
    refine ⟨l, m, hl, hm, ?_⟩
    rw [h2]
    generalize ((s.settleOps d c).settleLines d c).fresh = n
    have twice (u : State) (n : Nat) (h : u = { s.setCore d c { s.core d c with code := { (s.core d c).code with ops := l } } with fresh := n }) (k : Core) :
        u.setCore d c k = { s.setCore d c k with fresh := n } := by
      rw [h, ← setCore_setCore s d c { s.core d c with code := { (s.core d c).code with ops := l } } k]; rfl
    rw [twice _ _ h1]

/-- A bundle held carries the tags of the fetch. -/
theorem codeHeld_some {s : State} {d : Fin 4} {c : Fin 68} {ws : List Nat} (h : s.codeHeld d c = some ws) :
    ∃ e ∈ (s.core d c).code.ops, e.tag = s.codeTag d c ∧ e.words = ws := by
  unfold State.codeHeld at h
  simp only [Option.map_eq_some_iff] at h
  obtain ⟨e, he, rfl⟩ := h
  exact ⟨e, List.mem_of_find?_eq_some he, by simpa using List.find?_some he, rfl⟩

/-- The pending asynchronous causes do not depend on the cache. -/
theorem asyncPending_code (k : Core) (l : CodeCache) : ({ k with code := l } : Core).asyncPending = k.asyncPending := by
  unfold Core.asyncPending Core.takeAsync
  simp only
  split
  · rfl
  · cases k.eng.errs[(0 : Fin 2)] with
    | cons e l => rfl
    | nil =>
      cases k.eng.errs[(1 : Fin 2)] with
      | cons e l => rfl
      | nil => cases hp : k.preempt <;> simp

/-- Nor does the interrupt of a Taproot core. -/
theorem interrupt_setCore_code (s : State) (d : Fin 4) (c : Fin 68) (l : CodeCache) :
    (s.setCore d c { s.core d c with code := l }).interrupt d c = s.interrupt d c := by
  unfold State.interrupt State.trip
  simp only [core_setCore_same, die_setCore_same, setCore_hub]
  rfl

/-- The core that issues, once the cache has taken its bundle in. -/
theorem here_keepCode (s : State) (ws : List Nat) :
    ∃ l, s.keepCode s.cur.1 s.cur.2 ws = s.setCore s.cur.1 s.cur.2 { s.here with code := l } ∧ (s.keepCode s.cur.1 s.cur.2 ws).here = { s.here with code := l } := by
  obtain ⟨l, h⟩ := keepCode_eq s s.cur.1 s.cur.2 ws
  refine ⟨l, h, ?_⟩
  rw [h]
  exact core_setCore_same _ _ _ _

/-- Taking a bundle in does not stop the core from trying it. -/
theorem awake_keepCode (s : State) (ws : List Nat) : (s.keepCode s.cur.1 s.cur.2 ws).awake = s.awake := by
  obtain ⟨l, h, hh⟩ := here_keepCode s ws
  have hd : ((s.keepCode s.cur.1 s.cur.2 ws).die (s.keepCode s.cur.1 s.cur.2 ws).cur.1).holds (s.keepCode s.cur.1 s.cur.2 ws).cur.2 =
      (s.die s.cur.1).holds s.cur.2 := by
    rw [h]
    show ((s.setCore s.cur.1 s.cur.2 _).die s.cur.1).holds s.cur.2 = _
    rw [die_setCore_same]; rfl
  have hp : (s.keepCode s.cur.1 s.cur.2 ws).power = s.power := by rw [h]; rfl
  unfold State.awake
  rw [hh, hd, hp]

/-- Nor does it bring anything to the boundary. -/
theorem calm_keepCode (s : State) (ws : List Nat) : (s.keepCode s.cur.1 s.cur.2 ws).calm = s.calm := by
  obtain ⟨l, h, hh⟩ := here_keepCode s ws
  have hi : (s.keepCode s.cur.1 s.cur.2 ws).interrupt (s.keepCode s.cur.1 s.cur.2 ws).cur.1 (s.keepCode s.cur.1 s.cur.2 ws).cur.2 =
      s.interrupt s.cur.1 s.cur.2 := by
    rw [h]
    exact interrupt_setCore_code s _ _ l
  have hc : (s.keepCode s.cur.1 s.cur.2 ws).cur.2 = s.cur.2 := by rw [h]; rfl
  unfold State.calm
  rw [hh, hi, hc]
  simp only
  rw [asyncPending_code]
  rfl

end Sys2Proof.Machine
end

