-- ==== Sys2Proof/Laws/Mem.lean ====
section
/-! SUPPORT. Memory: every operation keeps the canonical form, a read after a write gives what was written, and a write leaves every other
byte alone (00_scope.md R5). -/

namespace Sys2Proof.Machine

open Sys2Proof

theorem swfFrom_mono {w : Nat} {l : List (Nat × BitVec w)} {a b : Nat} (h : swfFrom b l = true) (hab : a ≤ b) : swfFrom a l = true := by
  cases l with
  | nil => rfl
  | cons x l =>
    simp only [swfFrom, Bool.and_eq_true, decide_eq_true_eq] at h ⊢
    exact ⟨⟨Nat.le_trans hab h.1.1, h.1.2⟩, h.2⟩

theorem swfFrom_sset {w : Nat} (l : List (Nat × BitVec w)) (lo a : Nat) (x : BitVec w) (h : swfFrom lo l = true) (ha : lo ≤ a) :
    swfFrom lo (sset l a x) = true := by
  induction l generalizing lo with
  | nil =>
    unfold sset
    split
    · rfl
    · rename_i hx
      simp only [swfFrom, Bool.and_eq_true, decide_eq_true_eq]
      exact ⟨⟨ha, by simpa using hx⟩, trivial⟩
  | cons y l ih =>
    obtain ⟨k, v⟩ := y
    have h' := h
    simp only [swfFrom, Bool.and_eq_true, decide_eq_true_eq] at h
    obtain ⟨⟨hk, hv⟩, hl⟩ := h
    unfold sset
    split
    · rename_i hak
      split
      · exact h'
      · rename_i hx
        simp only [swfFrom, Bool.and_eq_true, decide_eq_true_eq]
        exact ⟨⟨ha, by simpa using hx⟩, ⟨by omega, hv⟩, hl⟩
    · split
      · rename_i _ hak
        subst hak
        split
        · exact swfFrom_mono hl (by omega)
        · rename_i hx
          simp only [swfFrom, Bool.and_eq_true, decide_eq_true_eq]
          exact ⟨⟨ha, by simpa using hx⟩, hl⟩
      · simp only [swfFrom, Bool.and_eq_true, decide_eq_true_eq]
        exact ⟨⟨hk, hv⟩, ih _ hl (by omega)⟩

/-- Writing a key keeps the canonical form. -/
theorem swf_sset {w : Nat} {l : List (Nat × BitVec w)} (a : Nat) (x : BitVec w) (h : swf l = true) : swf (sset l a x) = true :=
  swfFrom_sset l 0 a x h (Nat.zero_le a)

theorem sget_below {w : Nat} {l : List (Nat × BitVec w)} {lo a : Nat} (h : swfFrom lo l = true) (ha : a < lo) : sget l a = 0 := by
  cases l with
  | nil => rfl
  | cons y l =>
    simp only [swfFrom, Bool.and_eq_true, decide_eq_true_eq] at h
    have hak : a < y.1 := Nat.lt_of_lt_of_le ha h.1.1
    show (if a < y.1 then 0 else if a = y.1 then y.2 else sget l a) = 0
    rw [if_pos hak]

theorem sget_ssetFrom {w : Nat} (l : List (Nat × BitVec w)) (lo a b : Nat) (x : BitVec w) (h : swfFrom lo l = true) :
    sget (sset l a x) b = if b = a then x else sget l b := by
  induction l generalizing lo with
  | nil =>
    unfold sset
    split
    · rename_i hx; subst hx; split <;> rfl
    · show (if b < a then 0 else if b = a then x else 0) = _
      by_cases hb : b = a
      · rw [if_pos hb, if_neg (by omega), if_pos hb]
      · rw [if_neg hb, if_neg hb]; split <;> rfl
  | cons y l ih =>
    obtain ⟨k, v⟩ := y
    simp only [swfFrom, Bool.and_eq_true, decide_eq_true_eq] at h
    obtain ⟨⟨hk, hv⟩, hl⟩ := h
    unfold sset
    by_cases hak : a < k
    · rw [if_pos hak]
      by_cases hx : x = 0
      · rw [if_pos hx]
        by_cases hb : b = a
        · rw [if_pos hb, hx]
          show (if b < k then 0 else _) = _
          rw [if_pos (by omega)]
        · rw [if_neg hb]
      · rw [if_neg hx]
        show (if b < a then 0 else if b = a then x else sget ((k, v) :: l) b) = _
        by_cases hb : b = a
        · simp only [if_pos hb, if_neg (show ¬ b < a by omega)]
        · simp only [if_neg hb]
          split
          · show _ = (if b < k then 0 else _)
            rw [if_pos (by omega)]
          · rfl
    · rw [if_neg hak]
      by_cases he : a = k
      · rw [if_pos he]
        subst he
        by_cases hx : x = 0
        · rw [if_pos hx]
          show _ = if b = a then x else (if b < a then 0 else if b = a then v else sget l b)
          by_cases hb : b = a
          · rw [if_pos hb, hx]; exact sget_below hl (by omega)
          · rw [if_neg hb]
            by_cases hlt : b < a
            · rw [if_pos hlt]; exact sget_below hl (by omega)
            · rw [if_neg hlt, if_neg hb]
        · rw [if_neg hx]
          show (if b < a then 0 else if b = a then x else sget l b) = if b = a then x else (if b < a then 0 else if b = a then v else sget l b)
          by_cases hb : b = a
          · rw [if_neg (by omega), if_pos hb, if_pos hb]
          · rw [if_neg hb, if_neg hb, if_neg hb]
      · rw [if_neg he]
        show (if b < k then 0 else if b = k then v else sget (sset l a x) b) =
          if b = a then x else (if b < k then 0 else if b = k then v else sget l b)
        rw [ih _ hl]
        by_cases hb : b = a
        · simp only [if_pos hb, if_neg (show ¬ b < k by omega), if_neg (show ¬ b = k by omega)]
        · simp only [if_neg hb]

/-- A read after a write of a key. -/
theorem sget_sset {w : Nat} {l : List (Nat × BitVec w)} (a b : Nat) (x : BitVec w) (h : swf l = true) :
    sget (sset l a x) b = if b = a then x else sget l b :=
  sget_ssetFrom l 0 a b x h

theorem swf_writeBytes {m : Bytes} (a : Nat) (l : List (BitVec 8)) (h : swf m = true) : swf (writeBytes m a l) = true := by
  induction l generalizing m a with
  | nil => exact h
  | cons b l ih => exact ih (a + 1) (swf_sset a b h)

theorem swf_writeLE {m : Bytes} (a n v : Nat) (h : swf m = true) : swf (writeLE m a n v) = true := swf_writeBytes a _ h

theorem swf_writeCells {m : Bytes} (l : List (Nat × BitVec 8)) (h : swf m = true) : swf (writeCells m l) = true := by
  induction l generalizing m with
  | nil => exact h
  | cons x l ih => exact ih (swf_sset x.1 x.2 h)

theorem swf_replaceRange (m : Bytes) (lo len : Nat) (new : Bytes) : swf (replaceRange m lo len new) = true := by
  have : ∀ l : Bytes, swf (l.foldr (fun x m => sset m x.1 x.2) []) = true := by
    intro l
    induction l with
    | nil => rfl
    | cons x l ih => exact swf_sset x.1 x.2 ih
  exact this _

/-- A write of bytes leaves every other byte alone. -/
theorem sget_writeBytes_ne {m : Bytes} (a b : Nat) (l : List (BitVec 8)) (h : swf m = true) (hb : b < a ∨ a + l.length ≤ b) :
    sget (writeBytes m a l) b = sget m b := by
  induction l generalizing m a with
  | nil => rfl
  | cons x l ih =>
    show sget (writeBytes (sset m a x) (a + 1) l) b = _
    rw [List.length_cons] at hb
    rw [ih (a + 1) (swf_sset a x h) (by omega), sget_sset a b x h, if_neg (by omega)]

@[simp] theorem bytesOf_length (v n : Nat) : (bytesOf v n).length = n := by
  induction n generalizing v with
  | zero => rfl
  | succ n ih => show (bytesOf (v / 256) n).length + 1 = n + 1; rw [ih]

/-- A little-endian write leaves every other byte alone. -/
theorem sget_writeLE_ne {m : Bytes} {a n v b : Nat} (h : swf m = true) (hb : b < a ∨ a + n ≤ b) : sget (writeLE m a n v) b = sget m b :=
  sget_writeBytes_ne a b _ h (by rw [bytesOf_length]; exact hb)

/-- A byte of a little-endian write. -/
theorem sget_writeLE {m : Bytes} {a n v i : Nat} (h : swf m = true) (hi : i < n) :
    sget (writeLE m a n v) (a + i) = BitVec.ofNat 8 (v / 256 ^ i) := by
  induction n generalizing m a v i with
  | zero => omega
  | succ n ih =>
    show sget (writeBytes (sset m a (BitVec.ofNat 8 v)) (a + 1) (bytesOf (v / 256) n)) (a + i) = _
    cases i with
    | zero =>
      rw [sget_writeBytes_ne (a + 1) (a + 0) _ (swf_sset a _ h) (by omega), sget_sset a (a + 0) _ h, if_pos (Nat.add_zero a), Nat.pow_zero, Nat.div_one]
    | succ i =>
      rw [show a + (i + 1) = a + 1 + i by omega]
      have := ih (m := sset m a (BitVec.ofNat 8 v)) (a := a + 1) (v := v / 256) (i := i) (swf_sset a _ h) (by omega)
      rw [show writeBytes (sset m a (BitVec.ofNat 8 v)) (a + 1) (bytesOf (v / 256) n) =
        writeLE (sset m a (BitVec.ofNat 8 v)) (a + 1) n (v / 256) from rfl, this, Nat.div_div_eq_div_mul, Nat.pow_succ', Nat.mul_comm]

theorem readLE_congr {m p : Bytes} {a n : Nat} (h : ∀ i, i < n → sget m (a + i) = sget p (a + i)) : readLE m a n = readLE p a n := by
  induction n generalizing a with
  | zero => rfl
  | succ n ih =>
    show (sget m a).toNat + 256 * readLE m (a + 1) n = (sget p a).toNat + 256 * readLE p (a + 1) n
    rw [show sget m a = sget p a from h 0 (by omega), ih fun i hi => by rw [show a + 1 + i = a + (i + 1) by omega]; exact h (i + 1) (by omega)]

/-- Reading elsewhere than a write went gives what reading before gave. -/
theorem readLE_writeLE_ne {m : Bytes} {a n v b k : Nat} (h : swf m = true) (hb : b + k ≤ a ∨ a + n ≤ b) :
    readLE (writeLE m a n v) b k = readLE m b k :=
  readLE_congr fun _ hi => sget_writeLE_ne h (by omega)

/-- Reading back what was written. -/
theorem readLE_writeLE {m : Bytes} {a n v : Nat} (h : swf m = true) : readLE (writeLE m a n v) a n = v % 256 ^ n := by
  induction n generalizing m a v with
  | zero => show 0 = v % 1; rw [Nat.mod_one]
  | succ n ih =>
    show (sget (writeLE (sset m a (BitVec.ofNat 8 v)) (a + 1) n (v / 256)) a).toNat +
      256 * readLE (writeLE (sset m a (BitVec.ofNat 8 v)) (a + 1) n (v / 256)) (a + 1) n = _
    rw [ih (swf_sset a _ h), sget_writeLE_ne (swf_sset a _ h) (by omega), sget_sset a a _ h, if_pos rfl, BitVec.toNat_ofNat]
    show v % 256 + 256 * (v / 256 % 256 ^ n) = v % 256 ^ (n + 1)
    rw [show 256 ^ (n + 1) = 256 * 256 ^ n from Nat.pow_succ', Nat.mod_mul]

end Sys2Proof.Machine
end

