-- ==== Sys2Proof/Laws/Home.lean ====
section
/-! SUPPORT. What a write at a home can change: memory by the bytes written, and beside it only what Heartwood slices hold (12_die.md R324, R326). -/

namespace Sys2Proof.Machine

open Sys2Proof

/-- What makes room in a set changes memory under the Heartwood alone, by the write-back of at most one line. -/
theorem heartRoom_eq (s : State) (a : Nat) :
    ∃ n d p, s.heartRoom a = { s with fresh := n, dram := d, dramPoison := p } ∧
      (d = s.dram ∨ ∃ b, d = writeLE s.dram b 64 (s.homeLine b)) := by
  unfold State.heartRoom
  split
  · exact ⟨s.fresh, s.dram, s.dramPoison, rfl, .inl rfl⟩
  · refine ⟨_, _, _, rfl, ?_⟩
    cases s.heartVictim a with
    | none => exact .inl (by simp only [State.heartOut])
    | some b => exact .inr ⟨b, by simp only [State.heartOut, State.heartBack]⟩

@[simp] theorem heartRoom_mem (s : State) (a : Nat) : (s.heartRoom a).mem = s.mem := by
  obtain ⟨_, _, _, h, _⟩ := heartRoom_eq s a; rw [h]

@[simp] theorem heartRoom_poison (s : State) (a : Nat) : (s.heartRoom a).poison = s.poison := by
  obtain ⟨_, _, _, h, _⟩ := heartRoom_eq s a; rw [h]

@[simp] theorem heartRoom_dies (s : State) (a : Nat) : (s.heartRoom a).dies = s.dies := by
  obtain ⟨_, _, _, h, _⟩ := heartRoom_eq s a; rw [h]

@[simp] theorem heartRoom_hub (s : State) (a : Nat) : (s.heartRoom a).hub = s.hub := by
  obtain ⟨_, _, _, h, _⟩ := heartRoom_eq s a; rw [h]

@[simp] theorem heartRoom_fabMem (s : State) (a : Nat) : (s.heartRoom a).fabMem = s.fabMem := by
  obtain ⟨_, _, _, h, _⟩ := heartRoom_eq s a; rw [h]

theorem swf_heartRoom {s : State} (a : Nat) (h : swf s.dram = true) : swf (s.heartRoom a).dram = true := by
  obtain ⟨_, _, _, e, hd⟩ := heartRoom_eq s a
  simp only [e]
  rcases hd with hd | ⟨b, hd⟩ <;> rw [hd]
  · exact h
  · exact swf_writeLE _ _ _ h

@[simp] theorem pinPlace_mem (s : State) (d : Fin 4) (a : Nat) : (s.pinPlace d a).mem = s.mem := by
  unfold State.pinPlace
  dsimp only
  repeat' split
  all_goals rfl

@[simp] theorem pinFill_mem (s : State) (d : Fin 4) (a : Nat) : (s.pinFill d a).mem = s.mem := by
  unfold State.pinFill
  split
  · rw [heartRoom_mem, pinPlace_mem]
  · rfl

@[simp] theorem touchHome_mem (s : State) (a : Nat) : (s.touchHome a).mem = s.mem := by
  unfold State.touchHome
  dsimp only
  repeat' split
  · rfl
  · exact pinFill_mem _ _ _
  · rfl

/-- A walk over a list whose every step changes only the dies changes only the dies. -/
theorem foldl_dies {α : Type} (f : State → α → State) (h : ∀ s x, ∃ y, f s x = { s with dies := y }) (l : List α) (s : State) :
    ∃ y, l.foldl f s = { s with dies := y } := by
  induction l generalizing s with
  | nil => exact ⟨s.dies, rfl⟩
  | cons x l ih =>
    obtain ⟨y, e⟩ := h s x
    obtain ⟨z, e'⟩ := ih (f s x)
    exact ⟨z, by rw [List.foldl_cons, e', e]⟩

/-- The end of a wait changes what one core's wait names, and nothing else. -/
theorem noteCore_eq (s : State) (src : Source) (d : Fin 4) (c : Fin 68) : ∃ y, s.noteCore src d c = { s with dies := y } := by
  unfold State.noteCore
  dsimp only
  repeat' split
  all_goals first
    | exact ⟨s.dies, rfl⟩
    | exact ⟨_, rfl⟩

/-- What reaches a home changes what the waits of cores name, and nothing else. -/
theorem noteHome_eq (s before : State) (src : Source) (which : Nat → Bool) : ∃ y, s.noteHome before src which = { s with dies := y } := by
  unfold State.noteHome
  refine foldl_dies _ (fun s d => ?_) _ _
  split
  · refine foldl_dies _ (fun s c => ?_) _ _
    split
    · split
      · exact ⟨s.dies, rfl⟩
      · exact noteCore_eq _ _ _ _
    · exact ⟨s.dies, rfl⟩
  · exact ⟨s.dies, rfl⟩

theorem noteLine_eq (s before : State) (d : Fin 4) (writer : Option (Fin 68)) (a : Nat) :
    ∃ y, s.noteLine before d writer a = { s with dies := y } := by
  unfold State.noteLine
  split
  · exact noteHome_eq _ _ _ _
  · exact ⟨s.dies, rfl⟩

/-- A write at a home merges the enabled bytes into its line, and changes no other byte of memory. -/
theorem homePut_mem (s : State) (a data en : Nat) :
    (s.homePut a data en).mem = if en = 0 then s.mem else writeLE s.mem a 64 (mergeLanes 8 64 (s.homeLine a) data en) := by
  unfold State.homePut
  split
  · rfl
  · simp [State.homeLine]

end Sys2Proof.Machine
end

