-- ==== Sys2Proof/Laws/Land.lean ====
section
/-! SUPPORT. What the landing of writes does, said once (01_bundles.md R32). -/

namespace Sys2Proof.Machine

open Sys2Proof

theorem filter_due_none {k : Core} (h : ∀ w ∈ k.pend, k.now < w.land) : (k.pend.filter fun w => decide (w.land ≤ k.now)) = [] := by
  rw [List.filter_eq_nil_iff]
  intro w hw
  have := h w hw
  simp only [decide_eq_true_eq]
  omega

theorem filter_late_all {k : Core} {l : List Pend} (h : ∀ w ∈ l, k.now < w.land) : (l.filter fun w => decide (¬ w.land ≤ k.now)) = l := by
  rw [List.filter_eq_self]
  intro w hw
  have := h w hw
  simp only [decide_eq_true_eq]
  omega

/-- With no write due and no result held, a landing changes nothing. -/
theorem landDue_none {k : Core} (h : ∀ w ∈ k.pend, k.now < w.land) (hh : k.held = []) : k.landDue = k := by
  have h2 := filter_late_all h
  unfold Core.landDue
  simp only [filter_due_none h, h2, sortPends, Core.landList, collides, List.foldl_nil, hh, Core.releaseHeld, List.isEmpty_nil, if_true]
  rw [← hh]

/-- A cycle that no write lands at only counts. -/
theorem tick_quiet {k : Core} (h : ∀ w ∈ k.pend, k.now + 1 < w.land) (hh : k.held = []) :
    k.tick = { k with cyc := if k.handler then k.cyc else k.cyc + 1, hcyc := if k.handler then k.hcyc + 1 else k.hcyc } := by
  unfold Core.tick
  cases hm : k.handler
  · have hn : k.now = k.cyc := by simp [Core.now, hm]
    simp only [Bool.false_eq_true, if_false]
    rw [landDue_none]
    · intro w hw
      have := h w hw
      simp only [Core.now, Bool.false_eq_true, if_false] at *
      omega
    · exact hh
  · have hn : k.now = k.hcyc := by simp [Core.now, hm]
    simp only [if_true]
    rw [landDue_none]
    · intro w hw
      have := h w hw
      simp only [Core.now, if_true] at *
      omega
    · exact hh

/-- One write alone collides with nothing. -/
theorem collides_one (n : Nat) (w : Pend) : collides n [w] = [] := by
  unfold collides collides collideOne
  simp

/-- Where no result stays, a landing write takes its register. -/
theorem applyKept_none {k : Core} (h : k.stay = []) (w : Pend) (v : Nat) : k.applyKept w v = k.applyWrite w v := by
  simp [Core.applyKept, h]

theorem setSpad_stay (k : Core) (m : Bytes) : (k.setSpad m).stay = k.stay := by
  unfold Core.setSpad
  split <;> rfl

theorem landVtbld_stay (k : Core) (ring : Fin 16) (acts : Nat) (t : VtbldArgs) : (landVtbld k ring acts t).stay = k.stay := by
  unfold landVtbld
  dsimp only
  split
  · rfl
  · exact setSpad_stay _ _

/-- A landing write leaves the results that stay. -/
theorem applyWrite_stay (k : Core) (w : Pend) (v : Nat) : (k.applyWrite w v).stay = k.stay := by
  unfold Core.applyWrite
  dsimp only
  repeat' first
    | rfl
    | exact landVtbld_stay _ _ _ _
    | split

theorem applyLatch_stay (k : Core) (w : Pend) (v : Nat) : (k.applyLatch w v).stay = k.stay := by
  unfold Core.applyLatch; split <;> rfl

theorem applyTileLatch_stay (k : Core) (w : Pend) (v : Nat) : (k.applyTileLatch w v).stay = k.stay := by
  unfold Core.applyTileLatch; split <;> rfl

theorem release_kept {k : Core} (h : k.stay = []) (b : Bool) (p : Held → Bool) :
    Core.releaseHeld k.held { k with held := [], stay := if b then k.stay else k.stay.filter p } =
      Core.releaseHeld k.held { k with held := [] } := by
  simp only [h, List.filter_nil, ite_self]

/-- The one write that is due, of a core that holds no result back: it takes its register and its latch. -/
theorem landDue_one {k : Core} {l : List Pend} {w : Pend} (hp : k.pend = l ++ [w]) (h : ∀ x ∈ l, k.now < x.land) (hw : w.land ≤ k.now)
    (hs : k.stay = []) (he : w.evs = []) :
    k.landDue =
      let k0 := { k with pend := l }
      Core.releaseHeld (((k0.applyWrite w (k0.mergedVal w)).applyLatch w (k0.mergedVal w)).applyTileLatch w (k0.mergedVal w)).held
        { ((k0.applyWrite w (k0.mergedVal w)).applyLatch w (k0.mergedVal w)).applyTileLatch w (k0.mergedVal w) with held := [] } := by
  have h1 : (k.pend.filter fun w => decide (w.land ≤ k.now)) = [w] := by
    rw [hp, List.filter_append]
    have : (l.filter fun w => decide (w.land ≤ k.now)) = [] := by
      rw [List.filter_eq_nil_iff]
      intro x hx
      have := h x hx
      simp only [decide_eq_true_eq]
      omega
    rw [this]
    simp [hw]
  have h2 : (k.pend.filter fun w => decide (¬ w.land ≤ k.now)) = l := by
    rw [hp, List.filter_append, filter_late_all h]
    simp [hw]
  have e (k0 : Core) (h0 : k0.stay = []) : (collides k0.now (sortPends [w])).foldl Core.post (k0.landList (sortPends [w]) k0) =
      ((k0.applyWrite w (k0.mergedVal w)).applyLatch w (k0.mergedVal w)).applyTileLatch w (k0.mergedVal w) := by
    simp only [sortPends, insertPend, Core.landList, collides_one, List.foldl_nil, he, Core.postEvents, applyKept_none h0]
  unfold Core.landDue
  simp only [h1, h2]
  rw [e { k with pend := l } hs]
  exact release_kept (by rw [applyTileLatch_stay, applyLatch_stay, applyWrite_stay]; exact hs) _ _

/-- The core a cycle later, before anything lands. -/
def Core.later (k : Core) : Core := if k.handler then { k with hcyc := k.hcyc + 1 } else { k with cyc := k.cyc + 1 }

@[simp] theorem later_now (k : Core) : k.later.now = k.now + 1 := by
  unfold Core.later Core.now
  cases k.handler <;> simp

theorem later_held (k : Core) : k.later.held = k.held := by unfold Core.later; split <;> rfl

theorem later_stay (k : Core) : k.later.stay = k.stay := by unfold Core.later; split <;> rfl

theorem later_pend (k : Core) : k.later.pend = k.pend := by unfold Core.later; split <;> rfl

/-- A cycle at which one write lands whose effect holds no result back. -/
theorem tick_one {k : Core} {l : List Pend} {w : Pend} (hp : k.pend = l ++ [w]) (h : ∀ x ∈ l, k.now + 1 < x.land) (hw : w.land = k.now + 1)
    (hs : k.stay = []) (he : w.evs = []) {r : Core}
    (hr : let k0 := { k.later with pend := l }
      ((k0.applyWrite w (k0.mergedVal w)).applyLatch w (k0.mergedVal w)).applyTileLatch w (k0.mergedVal w) = r) (hr' : r.held = []) :
    k.tick = r := by
  have hl : k.tick = k.later.landDue := by unfold Core.tick Core.later; rfl
  rw [hl, landDue_one (l := l) (w := w) (by rw [later_pend, hp]) (by simpa using h) (by simp [hw]) (by rw [later_stay, hs]) he]
  simp only at hr ⊢
  rw [hr, hr']
  simp only [Core.releaseHeld]
  rw [← hr']

end Sys2Proof.Machine
end

