-- ==== Sys2Proof/Laws/Issued.lean ====
section
/-! SUPPORT. What an issue leaves, said once (01_bundles.md R30 to R38). -/

namespace Sys2Proof.Machine

open Sys2Proof

theorem ready_awake {s : State} {x : Slot} (h : s.ready x = true) : s.awake = true := by
  simp only [State.ready, Bool.and_eq_true] at h; exact h.1.1.1.1

theorem ready_calm {s : State} {x : Slot} (h : s.ready x = true) : s.calm = true := by
  simp only [State.ready, Bool.and_eq_true] at h; exact h.1.1.1.2

theorem ready_noneOwed {s : State} {x : Slot} (h : s.ready x = true) : s.here.noneOwed = true := by
  simp only [State.ready, Bool.and_eq_true] at h; exact h.1.1.2

theorem ready_power {s : State} {x : Slot} (h : s.ready x = true) : s.power = true := by
  have := ready_awake h
  simp only [State.awake, Bool.and_eq_true] at this; exact this.1.1.1.1.1.1

theorem ready_stepping {s : State} {x : Slot} (h : s.ready x = true) : s.here.dbg.stepping = false := by
  have := ready_awake h
  simp only [State.awake, Bool.and_eq_true, Bool.not_eq_true'] at this; exact this.1.1.1.2

theorem ready_running {s : State} {x : Slot} (h : s.ready x = true) : s.here.run = .running := by
  have := ready_awake h
  simp only [State.awake, Bool.and_eq_true, beq_iff_eq] at this; exact this.1.1.1.1.1.2

theorem ready_delay {s : State} {x : Slot} (h : s.ready x = true) : s.here.delay = 0 := by
  have := ready_awake h
  simp only [State.awake, Bool.and_eq_true, beq_iff_eq] at this; exact this.2

theorem ready_held {s : State} {x : Slot} (h : s.ready x = true) : s.here.held = [] := by
  have := ready_noneOwed h
  simp only [Core.noneOwed, Bool.and_eq_true, List.isEmpty_iff] at this; exact this.1.1.2

theorem ready_btoks {s : State} {x : Slot} (h : s.ready x = true) : s.here.eng.btoks = [] := by
  have := ready_noneOwed h
  simp only [Core.noneOwed, Bool.and_eq_true, List.isEmpty_iff] at this; exact this.1.2

/-- Nothing comes after an issue of a ready slot but what the slot itself asks for. -/
theorem afterCause_ready {s : State} {x : Slot} (h : s.ready x = true) {a : Acc} (ha : a.after = none) : s.here.afterCause s.cur.2 a = none := by
  have hc := ready_calm h
  simp only [State.calm, Bool.and_eq_true] at hc
  unfold Core.afterCause
  rw [ha]
  simp only
  rw [if_neg]
  intro hh
  simp only [Bool.and_eq_true, Bool.not_eq_true', Bool.or_eq_true] at hh
  obtain ⟨⟨⟨ht, hhand⟩, hs⟩, -⟩ := hh
  have h1 := hc.1
  rw [if_neg (by simp [ht])] at h1
  rw [hhand] at h1
  simp only [Bool.false_or, Bool.and_eq_true, Bool.not_eq_true'] at h1
  rcases hs with hs | hs
  · rw [h1.2.1.2] at hs; exact absurd hs (by decide)
  · rw [h1.2.2] at hs; exact absurd hs (by decide)

/-- A plain issue: the core has committed, and what the slot posts has happened. -/
theorem issued_eq {s : State} {x : Slot} (h : s.ready x = true) {a : Acc} (hst : a.st = s) (ha : a.after = none) (hr : a.rft = false)
    (hs : a.sret = false) :
    s.issued x a = a.post.foldl (fun s f => f s) (s.setCore s.cur.1 s.cur.2 (s.here.commit a (s.nextPc x))) := by
  have h1 : (s.core s.cur.1 s.cur.2).afterCause s.cur.2 a = none := afterCause_ready h ha
  have h2 : (s.core s.cur.1 s.cur.2).dbg.stepping = false := ready_stepping h
  unfold State.issued State.commit
  simp only [hst, hr, hs, h1, h2, Bool.false_eq_true, if_false]

theorem quiet_pend {s : State} (h : s.quiet = true) : ∀ w ∈ s.here.pend, s.here.now + 1 < w.land := by
  simp only [State.quiet, Bool.and_eq_true, List.all_eq_true, decide_eq_true_eq] at h
  exact h.1.1

theorem quiet_stay {s : State} (h : s.quiet = true) : s.here.stay = [] := by
  simp only [State.quiet, Bool.and_eq_true, List.isEmpty_iff] at h
  exact h.1.2

theorem quiet_waitc {s : State} (h : s.quiet = true) : s.here.waitc = none := by
  simp only [State.quiet, Bool.and_eq_true, Option.isNone_iff_eq_none] at h
  exact h.2

/-- The core before its scratchpad takes what the slots stored, and before its cycle passes. -/
def Core.gathered (k : Core) (a : Acc) (next : W64) : Core :=
  { k with
    rings := a.rings
    eng := a.eng
    full := a.full
    regs := { k.regs with rng := a.rng }
    pend := (k.pend.filter fun w => !a.stale w) ++ a.pends
    srb := k.srb.filter fun w => !a.stale w
    memq := k.memq ++ loadsFirst a.memq
    bseq := k.bseq + 1
    skipBp := false
    stepOnce := k.handler && k.stepOnce
    stallTaken := false
    waitc := none
    delay := a.delay
    haltAddr := if a.halt then k.pc else k.haltAddr
    run := if a.halt then .halted else k.run
    pc := a.branch.getD next }

/-- Where a bundle makes no write stale, every write on its way stays on it. -/
theorem gathered_pend {k : Core} {a : Acc} {next : W64} (h : a.stale = fun _ => false) : (k.gathered a next).pend = k.pend ++ a.pends := by
  simp [Core.gathered, h]

theorem gathered_srb {k : Core} {a : Acc} {next : W64} (h : a.stale = fun _ => false) : (k.gathered a next).srb = k.srb := by
  simp [Core.gathered, h]

/-- No entry, or one, enters the pipeline as it is. -/
@[simp] theorem loadsFirst_nil : loadsFirst [] = [] := rfl

@[simp] theorem loadsFirst_one (m : MemOp) : loadsFirst [m] = [m] := by
  cases h : m.kind.isLoad <;> simp [loadsFirst, h]

/-- A scratchpad that stays as it is leaves the core as it is. -/
@[simp] theorem setSpad_self (k : Core) : k.setSpad k.spad = k := by simp [Core.setSpad]

@[simp] theorem setSpad_spad (k : Core) (b : Bytes) : (k.setSpad b).spad = b := by unfold Core.setSpad; split <;> rfl
@[simp] theorem setSpad_pend (k : Core) (b : Bytes) : (k.setSpad b).pend = k.pend := by unfold Core.setSpad; split <;> rfl
@[simp] theorem setSpad_held (k : Core) (b : Bytes) : (k.setSpad b).held = k.held := by unfold Core.setSpad; split <;> rfl
@[simp] theorem setSpad_regs (k : Core) (b : Bytes) : (k.setSpad b).regs = k.regs := by unfold Core.setSpad; split <;> rfl
@[simp] theorem setSpad_handler (k : Core) (b : Bytes) : (k.setSpad b).handler = k.handler := by unfold Core.setSpad; split <;> rfl
@[simp] theorem setSpad_cyc (k : Core) (b : Bytes) : (k.setSpad b).cyc = k.cyc := by unfold Core.setSpad; split <;> rfl
@[simp] theorem setSpad_hcyc (k : Core) (b : Bytes) : (k.setSpad b).hcyc = k.hcyc := by unfold Core.setSpad; split <;> rfl
@[simp] theorem setSpad_rings (k : Core) (b : Bytes) : (k.setSpad b).rings = k.rings := by unfold Core.setSpad; split <;> rfl
@[simp] theorem setSpad_full (k : Core) (b : Bytes) : (k.setSpad b).full = k.full := by unfold Core.setSpad; split <;> rfl
@[simp] theorem setSpad_csr (k : Core) (b : Bytes) : (k.setSpad b).csr = k.csr := by unfold Core.setSpad; split <;> rfl
@[simp] theorem setSpad_memq (k : Core) (b : Bytes) : (k.setSpad b).memq = k.memq := by unfold Core.setSpad; split <;> rfl
@[simp] theorem setSpad_pc (k : Core) (b : Bytes) : (k.setSpad b).pc = k.pc := by unfold Core.setSpad; split <;> rfl
@[simp] theorem setSpad_now (k : Core) (b : Bytes) : (k.setSpad b).now = k.now := by simp [Core.now]

/-- A change of the scratchpad reaches its bytes, and of the engines what a lookup has read of its tiles, nothing else. -/
theorem setSpad_frame (k : Core) (b : Bytes) : k.setSpad b = { k with spad := b, eng := (k.setSpad b).eng } := by
  unfold Core.setSpad; split <;> rfl

theorem commit_eq {k : Core} {a : Acc} {next : W64} (h : k.waitc = none) : k.commit a next = ((k.gathered a next).setSpad a.spad).tick := by
  unfold Core.commit
  have : k.postWait = k := by unfold Core.postWait; rw [h]
  rw [this]
  rfl

/-- A commit at which no write lands. -/
theorem commit_quiet {k : Core} {a : Acc} {next : W64} (hw : k.waitc = none) (hh : k.held = []) (hp : ∀ w ∈ k.pend, k.now + 1 < w.land)
    (ha : ∀ w ∈ a.pends, k.now + 1 < w.land) :
    k.commit a next = { (k.gathered a next).setSpad a.spad with
      cyc := if k.handler then k.cyc else k.cyc + 1, hcyc := if k.handler then k.hcyc + 1 else k.hcyc } := by
  rw [commit_eq hw, tick_quiet (k := (k.gathered a next).setSpad a.spad)]
  · simp only [setSpad_handler, setSpad_cyc, setSpad_hcyc]; rfl
  · intro w hm
    rw [setSpad_pend] at hm
    rw [setSpad_now]
    have hm' : w ∈ (k.pend.filter fun w => !a.stale w) ++ a.pends := hm
    rcases List.mem_append.mp hm' with hm' | hm'
    · exact hp w (List.mem_filter.mp hm').1
    · exact ha w hm'
  · rw [setSpad_held]; exact hh

end Sys2Proof.Machine
end

