-- ==== Sys2Proof/Laws/PerInstr.lean ====
section
/-! SUPPORT. One lemma per constructor of Instr: the slot of an instruction gives the instruction back, every operand as it was. -/

namespace Sys2Proof.Laws.Slots

open Sys2Proof

/-- An instruction that a slot of a bundle can hold is the instruction of its slot (01_bundles.md R11). -/
def Statement (i : Instr) : Prop := ∀ x, i.slot = some x → x.instr = i

theorem of_slot {i : Instr} {y : Slot} (h : i.slot = some y) (hy : y.instr = i) : Statement i :=
  fun _ hx => Option.some.inj (h.symm.trans hx) ▸ hy

theorem of_none {i : Instr} (h : i.slot = none) : Statement i := fun _ hx => nomatch h.symm.trans hx

theorem bundleIssue (d : Fin 4) (c : Fin 68) : Statement (.bundleIssue d c) := of_none rfl
theorem writeLanding (d : Fin 4) (c : Fin 68) : Statement (.writeLanding d c) := of_none rfl
theorem interlockedResultArrival (d : Fin 4) (c : Fin 68) (n : Nat) : Statement (.interlockedResultArrival d c n) := of_none rfl
theorem asyncTrapTake (d : Fin 4) (c : Fin 68) : Statement (.asyncTrapTake d c) := of_none rfl
theorem haltedCauseDelivery (d : Fin 4) (c : Fin 68) : Statement (.haltedCauseDelivery d c) := of_none rfl
theorem statRecordWrite (d : Fin 4) (c : Fin 68) : Statement (.statRecordWrite d c) := of_none rfl
theorem lookupCommandStart (d : Fin 4) (c : Fin 68) : Statement (.lookupCommandStart d c) := of_none rfl
theorem lookupCommandRetire (d : Fin 4) (c : Fin 68) : Statement (.lookupCommandRetire d c) := of_none rfl
theorem maclrRetire (d : Fin 4) (c : Fin 68) : Statement (.maclrRetire d c) := of_none rfl
theorem macwrRetire (d : Fin 4) (c : Fin 68) : Statement (.macwrRetire d c) := of_none rfl
theorem mbiasRetire (d : Fin 4) (c : Fin 68) : Statement (.mbiasRetire d c) := of_none rfl
theorem mmaskStart (d : Fin 4) (c : Fin 68) : Statement (.mmaskStart d c) := of_none rfl
theorem mmaskRetire (d : Fin 4) (c : Fin 68) : Statement (.mmaskRetire d c) := of_none rfl
theorem copyChunk (d : Fin 4) (c : Fin 68) (y : Bool) : Statement (.copyChunk d c y) := of_none rfl
theorem copyCompletionRecord (d : Fin 4) (c : Fin 68) (y : Bool) : Statement (.copyCompletionRecord d c y) := of_none rfl
theorem ypushFinish (d : Fin 4) (c : Fin 68) (y : Bool) : Statement (.ypushFinish d c y) := of_none rfl
theorem releasePerformed (d : Fin 4) (c : Fin 68) (n : Nat) : Statement (.releasePerformed d c n) := of_none rfl
theorem l1Writeback (d : Fin 4) (c : Fin 68) (line : Nat) (evict : Bool) : Statement (.l1Writeback d c line evict) := of_none rfl
theorem l2Writeback (d : Fin 4) (k : Fin 8) (line : Nat) (evict : Bool) : Statement (.l2Writeback d k line evict) := of_none rfl
theorem l1MissFill (d : Fin 4) (c : Fin 68) (line : Nat) : Statement (.l1MissFill d c line) := of_none rfl
theorem barrierStep (d : Fin 4) (c : Fin 68) (n : Nat) : Statement (.barrierStep d c n) := of_none rfl
theorem sliceSetRequest (d : Fin 4) (c : Fin 68) (n : Nat) : Statement (.sliceSetRequest d c n) := of_none rfl
theorem l2EccError (d : Fin 4) (k : Fin 8) (e : EccError) : Statement (.l2EccError d k e) := of_none rfl
theorem pageWalk (d : Fin 4) (c : Fin 68) (va : BitVec 64) (write : Bool) : Statement (.pageWalk d c va write) := of_none rfl
theorem tlbinvAll (d : Fin 4) : Statement (.tlbinvAll d) := of_none rfl
theorem tlbinvAsn (d : Fin 4) : Statement (.tlbinvAsn d) := of_none rfl
theorem tlbinvRange (d : Fin 4) : Statement (.tlbinvRange d) := of_none rfl
theorem tlbinvCwPurge (d : Fin 4) : Statement (.tlbinvCwPurge d) := of_none rfl
theorem tlbinvComplete (d : Fin 4) : Statement (.tlbinvComplete d) := of_none rfl
theorem pgansMapped (d : Fin 4) (tag : Nat) : Statement (.pgansMapped d tag) := of_none rfl
theorem pgansDeclined (d : Fin 4) (tag : Nat) : Statement (.pgansDeclined d tag) := of_none rfl
theorem preload (d : Fin 4) (r : Fin 8) : Statement (.preload d r) := of_none rfl
theorem pinRangeWrite (d : Fin 4) (r : Fin 8) (v : BitVec 64) : Statement (.pinRangeWrite d r v) := of_none rfl
theorem atlockSet (d : Fin 4) : Statement (.atlockSet d) := of_none rfl
theorem atlogClear (d : Fin 4) : Statement (.atlogClear d) := of_none rfl
theorem accessTableWrite (d : Fin 4) (off : Nat) (v : BitVec 64) : Statement (.accessTableWrite d off v) := of_none rfl
theorem ebudgetWrite (d : Fin 4) (v : BitVec 64) : Statement (.ebudgetWrite d v) := of_none rfl
theorem registerWrite (x : MasterAccess) (v : BitVec 64) : Statement (.registerWrite x v) := of_none rfl
theorem energyWindowBoundary (d : Fin 4) : Statement (.energyWindowBoundary d) := of_none rfl
theorem energySoftLimit (d : Fin 4) : Statement (.energySoftLimit d) := of_none rfl
theorem energyHardHold (d : Fin 4) : Statement (.energyHardHold d) := of_none rfl
theorem schedulerPass (d : Fin 4) : Statement (.schedulerPass d) := of_none rfl
theorem threadCompletion (d : Fin 4) (c : Fin 68) : Statement (.threadCompletion d c) := of_none rfl
theorem armStep (d : Fin 4) (c : Fin 68) (n : Nat) : Statement (.armStep d c n) := of_none rfl
theorem patchStep (d : Fin 4) (c : Fin 68) (n : Nat) : Statement (.patchStep d c n) := of_none rfl
theorem nrcmdResume (d : Fin 4) (idx : BitVec 16) : Statement (.nrcmdResume d idx) := of_none rfl
theorem nrcmdEnd (d : Fin 4) (idx : BitVec 16) (code : BitVec 32) : Statement (.nrcmdEnd d idx code) := of_none rfl
theorem nrcmdRemove (d : Fin 4) (idx : BitVec 16) : Statement (.nrcmdRemove d idx) := of_none rfl
theorem nrcmdPreempt (d : Fin 4) (idx : BitVec 16) : Statement (.nrcmdPreempt d idx) := of_none rfl
theorem coldReset : Statement .coldReset := of_none rfl
theorem warmReset : Statement .warmReset := of_none rfl
theorem taprootStart (d : Fin 4) (t : Fin 4) (v : BitVec 64) : Statement (.taprootStart d t v) := of_none rfl
theorem taprootInterrupt (d : Fin 4) (t : Fin 4) : Statement (.taprootInterrupt d t) := of_none rfl
theorem hostDoorbell (k : Fin 64) : Statement (.hostDoorbell k) := of_none rfl
theorem outdbSend (v : BitVec 64) : Statement (.outdbSend v) := of_none rfl
theorem inboundMsi (k : Fin 64) : Statement (.inboundMsi k) := of_none rfl
theorem pcieInboundAccess (write : Bool) (pa : Nat) (data : List (BitVec 8)) : Statement (.pcieInboundAccess write pa data) := of_none rfl
theorem gtrigWrite (v : BitVec 64) : Statement (.gtrigWrite v) := of_none rfl
theorem triggerShadowCopy : Statement .triggerShadowCopy := of_none rfl
theorem triggerMessage (t : BitVec 64) : Statement (.triggerMessage t) := of_none rfl
theorem linkDown (l : Link) : Statement (.linkDown l) := of_none rfl
theorem canopyPortDown (p : Fin 8) : Statement (.canopyPortDown p) := of_none rfl
theorem portTrain (p : Fin 8) (peer : Fin 16) (width : Fin 4) (ptime : BitVec 64) : Statement (.portTrain p peer width ptime) := of_none rfl
theorem memoryUncorrectable (d : Fin 4) (line : Nat) : Statement (.memoryUncorrectable d line) := of_none rfl
theorem patrolScrub (d : Fin 4) (line : Nat) (err : Option Bool) : Statement (.patrolScrub d line err) := of_none rfl
theorem attestReport (nonce : BitVec 256) : Statement (.attestReport nonce) := of_none rfl
theorem mrExtend (k : Fin 8) (digest : BitVec 256) : Statement (.mrExtend k digest) := of_none rfl
theorem fuseRaise (f : FuseRequest) (v : BitVec 64) : Statement (.fuseRaise f v) := of_none rfl
theorem debugUnlock (signed : Bool) : Statement (.debugUnlock signed) := of_none rfl
theorem freeze (d : Fin 4) (c : Fin 68) : Statement (.freeze d c) := of_none rfl
theorem resume (d : Fin 4) (c : Fin 68) : Statement (.resume d c) := of_none rfl
theorem step (d : Fin 4) (c : Fin 68) : Statement (.step d c) := of_none rfl
theorem stepover (d : Fin 4) (c : Fin 68) : Statement (.stepover d c) := of_none rfl
theorem read (d : Fin 4) (c : Fin 68) : Statement (.read d c) := of_none rfl
theorem cancel (d : Fin 4) (c : Fin 68) : Statement (.cancel d c) := of_none rfl
theorem reinject (d : Fin 4) (c : Fin 68) : Statement (.reinject d c) := of_none rfl
theorem write (d : Fin 4) (c : Fin 68) : Statement (.write d c) := of_none rfl
theorem thermalThrottle (d : Fin 4) : Statement (.thermalThrottle d) := of_none rfl
theorem thermalHold (d : Fin 4) : Statement (.thermalHold d) := of_none rfl
theorem thermalHoldRelease (d : Fin 4) : Statement (.thermalHoldRelease d) := of_none rfl
theorem thermtrip (d : Fin 4) : Statement (.thermtrip d) := of_none rfl
theorem fabricInboundAccess (src : Nat) (pa : Nat) (x : Inbound) : Statement (.fabricInboundAccess src pa x) := of_none rfl
theorem fabricWriteAck (n : Nat) : Statement (.fabricWriteAck n) := of_none rfl
theorem switchMerge (a b : Nat) : Statement (.switchMerge a b) := of_none rfl
theorem homeMerge (x : Merge) : Statement (.homeMerge x) := of_none rfl
theorem fabredWrite (n : Fin 16) (upper : Bool) (v : BitVec 64) : Statement (.fabredWrite n upper v) := of_none rfl
theorem routeWrite (n : Fin 15) (v : BitVec 64) : Statement (.routeWrite n v) := of_none rfl
theorem fabcfgWrite (v : BitVec 64) : Statement (.fabcfgWrite v) := of_none rfl
theorem lkiLoad (base : Nat) (size : Nat) : Statement (.lkiLoad base size) := of_none rfl
theorem storeQueueDrain (d : Fin 4) (c : Fin 68) (n : Nat) : Statement (.storeQueueDrain d c n) := of_none rfl
theorem cnop : Statement .cnop := of_slot rfl rfl
theorem br (g : Guard) (bt : Fin 8) : Statement (.br g bt) := of_slot rfl rfl
theorem brp (g : Guard) (bt : Fin 8) (neg : Bool) (ps : Fin 8) : Statement (.brp g bt neg ps) := of_slot rfl rfl
theorem brlc (g : Guard) (bt : Fin 8) (lc : Fin 4) : Statement (.brlc g bt lc) := of_slot rfl rfl
theorem brl (g : Guard) (bt bl : Fin 8) : Statement (.brl g bt bl) := of_slot rfl rfl
theorem brx (g : Guard) (a : Fin 32) : Statement (.brx g a) := of_slot rfl rfl
theorem halt (g : Guard) : Statement (.halt g) := of_slot rfl rfl
theorem delay (g : Guard) (n : BitVec 16) : Statement (.delay g n) := of_slot rfl rfl
theorem pbr (g : Guard) (bd : Fin 8) (im : BitVec 18) : Statement (.pbr g bd im) := of_slot rfl rfl
theorem pbrs (g : Guard) (d : Fin 8) (a : Fin 32) : Statement (.pbrs g d a) := of_slot rfl rfl
theorem bget (g : Guard) (d : Fin 32) (a : Fin 8) : Statement (.bget g d a) := of_slot rfl rfl
theorem btok (g : Guard) (d : Fin 8) (e : Eng) : Statement (.btok g d e) := of_slot rfl rfl
theorem lcset (g : Guard) (d : Fin 4) (n : BitVec 16) : Statement (.lcset g d n) := of_slot rfl rfl
theorem lcsets (g : Guard) (d : Fin 4) (a : Fin 32) : Statement (.lcsets g d a) := of_slot rfl rfl
theorem lcget (g : Guard) (d : Fin 32) (a : Fin 4) : Statement (.lcget g d a) := of_slot rfl rfl
theorem skset (g : Guard) (d : Fin 3) (n : Bool) : Statement (.skset g d n) := of_slot rfl rfl
theorem sksets (g : Guard) (d : Fin 3) (a : Fin 32) : Statement (.sksets g d a) := of_slot rfl rfl
theorem skget (g : Guard) (d : Fin 32) (a : Fin 3) : Statement (.skget g d a) := of_slot rfl rfl
theorem shape (g : Guard) (d : Fin 4) (a b : Fin 32) : Statement (.shape g d a b) := of_slot rfl rfl
theorem shapex (g : Guard) (d : Fin 4) (a : Fin 32) (imm : BitVec 32) : Statement (.shapex g d a imm) := of_slot rfl rfl
theorem shget (g : Guard) (d : Fin 32) (a : Fin 4) : Statement (.shget g d a) := of_slot rfl rfl
theorem fdset (g : Guard) (d : Fin 4) (a : Fin 32) : Statement (.fdset g d a) := of_slot rfl rfl
theorem fdget (g : Guard) (d : Fin 32) (a : Fin 4) : Statement (.fdget g d a) := of_slot rfl rfl
theorem hinit (g : Guard) (d : Fin 16) (a : Fin 32) : Statement (.hinit g d a) := of_slot rfl rfl
theorem hwait (g : Guard) (d : Fin 16) (n : BitVec 11) : Statement (.hwait g d n) := of_slot rfl rfl
theorem hres (g : Guard) (d : Fin 16) (n : BitVec 11) : Statement (.hres g d n) := of_slot rfl rfl
theorem hadv (g : Guard) (d : Fin 16) (n : BitVec 11) : Statement (.hadv g d n) := of_slot rfl rfl
theorem hcommit (g : Guard) (d : Fin 16) (a : Fin 32) : Statement (.hcommit g d a) := of_slot rfl rfl
theorem hget (g : Guard) (d : Fin 32) (a : Fin 16) : Statement (.hget g d a) := of_slot rfl rfl
theorem hstat (g : Guard) (d : Fin 32) (a : Fin 16) : Statement (.hstat g d a) := of_slot rfl rfl
theorem qfence (g : Guard) (m : BitVec 5) : Statement (.qfence g m) := of_slot rfl rfl
theorem barinit (g : Guard) (a : Fin 32) (n : BitVec 11) : Statement (.barinit g a n) := of_slot rfl rfl
theorem bararv (g : Guard) (sc : Scope) (n : BitVec 11) : Statement (.bararv g sc n) := of_slot rfl rfl
theorem barwait (g : Guard) (sc : Scope) (n : BitVec 11) : Statement (.barwait g sc n) := of_slot rfl rfl
theorem barrem (g : Guard) (a : Fin 32) (sc : Scope) : Statement (.barrem g a sc) := of_slot rfl rfl
theorem gjoin (g : Guard) (a : Fin 32) : Statement (.gjoin g a) := of_slot rfl rfl
theorem gleave (g : Guard) (a : Fin 32) : Statement (.gleave g a) := of_slot rfl rfl
theorem lpatch (g : Guard) (a b : Fin 32) (k : Fin 8) : Statement (.lpatch g a b k) := of_slot rfl rfl
theorem larm (g : Guard) (d a : Fin 32) : Statement (.larm g d a) := of_slot rfl rfl
theorem lwait (g : Guard) (a : Fin 16) : Statement (.lwait g a) := of_slot rfl rfl
theorem trap (g : Guard) (n : BitVec 16) : Statement (.trap g n) := of_slot rfl rfl
theorem rft (g : Guard) : Statement (.rft g) := of_slot rfl rfl
theorem brk (g : Guard) (n : BitVec 16) : Statement (.brk g n) := of_slot rfl rfl
theorem csrrd (g : Guard) (d : Fin 32) (n : BitVec 11) : Statement (.csrrd g d n) := of_slot rfl rfl
theorem csrwr (g : Guard) (a : Fin 32) (n : BitVec 11) : Statement (.csrwr g a n) := of_slot rfl rfl
theorem csrset (g : Guard) (a : Fin 32) (n : BitVec 11) : Statement (.csrset g a n) := of_slot rfl rfl
theorem csrclr (g : Guard) (a : Fin 32) (n : BitVec 11) : Statement (.csrclr g a n) := of_slot rfl rfl
theorem scall (g : Guard) (n : BitVec 16) : Statement (.scall g n) := of_slot rfl rfl
theorem sret (g : Guard) : Statement (.sret g) := of_slot rfl rfl
theorem wfi (g : Guard) : Statement (.wfi g) := of_slot rfl rfl
theorem tbwait (g : Guard) (d a : Fin 32) : Statement (.tbwait g d a) := of_slot rfl rfl
theorem snop : Statement .snop := of_slot rfl rfl
theorem add (g : Guard) (d a b : Fin 32) : Statement (.add g d a b) := of_slot rfl rfl
theorem sub (g : Guard) (d a b : Fin 32) : Statement (.sub g d a b) := of_slot rfl rfl
theorem mul (g : Guard) (d a b : Fin 32) : Statement (.mul g d a b) := of_slot rfl rfl
theorem mulh (g : Guard) (d a b : Fin 32) : Statement (.mulh g d a b) := of_slot rfl rfl
theorem mulhu (g : Guard) (d a b : Fin 32) : Statement (.mulhu g d a b) := of_slot rfl rfl
theorem and (g : Guard) (d a b : Fin 32) : Statement (.and g d a b) := of_slot rfl rfl
theorem or (g : Guard) (d a b : Fin 32) : Statement (.or g d a b) := of_slot rfl rfl
theorem xor (g : Guard) (d a b : Fin 32) : Statement (.xor g d a b) := of_slot rfl rfl
theorem andn (g : Guard) (d a b : Fin 32) : Statement (.andn g d a b) := of_slot rfl rfl
theorem orn (g : Guard) (d a b : Fin 32) : Statement (.orn g d a b) := of_slot rfl rfl
theorem shl (g : Guard) (d a b : Fin 32) : Statement (.shl g d a b) := of_slot rfl rfl
theorem shr (g : Guard) (d a b : Fin 32) : Statement (.shr g d a b) := of_slot rfl rfl
theorem sra (g : Guard) (d a b : Fin 32) : Statement (.sra g d a b) := of_slot rfl rfl
theorem rol (g : Guard) (d a b : Fin 32) : Statement (.rol g d a b) := of_slot rfl rfl
theorem min (g : Guard) (d a b : Fin 32) : Statement (.min g d a b) := of_slot rfl rfl
theorem max (g : Guard) (d a b : Fin 32) : Statement (.max g d a b) := of_slot rfl rfl
theorem minu (g : Guard) (d a b : Fin 32) : Statement (.minu g d a b) := of_slot rfl rfl
theorem maxu (g : Guard) (d a b : Fin 32) : Statement (.maxu g d a b) := of_slot rfl rfl
theorem slt (g : Guard) (d a b : Fin 32) : Statement (.slt g d a b) := of_slot rfl rfl
theorem sltu (g : Guard) (d a b : Fin 32) : Statement (.sltu g d a b) := of_slot rfl rfl
theorem seq (g : Guard) (d a b : Fin 32) : Statement (.seq g d a b) := of_slot rfl rfl
theorem sne (g : Guard) (d a b : Fin 32) : Statement (.sne g d a b) := of_slot rfl rfl
theorem clz (g : Guard) (d a : Fin 32) : Statement (.clz g d a) := of_slot rfl rfl
theorem mov (g : Guard) (d a : Fin 32) : Statement (.mov g d a) := of_slot rfl rfl
theorem ctz (g : Guard) (d a : Fin 32) : Statement (.ctz g d a) := of_slot rfl rfl
theorem popc (g : Guard) (d a : Fin 32) : Statement (.popc g d a) := of_slot rfl rfl
theorem sext (g : Guard) (d a : Fin 32) (w : Width) : Statement (.sext g d a w) := of_slot rfl rfl
theorem zext (g : Guard) (d a : Fin 32) (w : Width) : Statement (.zext g d a w) := of_slot rfl rfl
theorem addi (g : Guard) (d a : Fin 32) (im : BitVec 11) : Statement (.addi g d a im) := of_slot rfl rfl
theorem muli (g : Guard) (d a : Fin 32) (im : BitVec 11) : Statement (.muli g d a im) := of_slot rfl rfl
theorem andi (g : Guard) (d a : Fin 32) (im : BitVec 11) : Statement (.andi g d a im) := of_slot rfl rfl
theorem ori (g : Guard) (d a : Fin 32) (im : BitVec 11) : Statement (.ori g d a im) := of_slot rfl rfl
theorem xori (g : Guard) (d a : Fin 32) (im : BitVec 11) : Statement (.xori g d a im) := of_slot rfl rfl
theorem shli (g : Guard) (d a : Fin 32) (im : BitVec 11) : Statement (.shli g d a im) := of_slot rfl rfl
theorem shri (g : Guard) (d a : Fin 32) (im : BitVec 11) : Statement (.shri g d a im) := of_slot rfl rfl
theorem srai (g : Guard) (d a : Fin 32) (im : BitVec 11) : Statement (.srai g d a im) := of_slot rfl rfl
theorem roli (g : Guard) (d a : Fin 32) (im : BitVec 11) : Statement (.roli g d a im) := of_slot rfl rfl
theorem slti (g : Guard) (d a : Fin 32) (im : BitVec 11) : Statement (.slti g d a im) := of_slot rfl rfl
theorem sltui (g : Guard) (d a : Fin 32) (im : BitVec 11) : Statement (.sltui g d a im) := of_slot rfl rfl
theorem seqi (g : Guard) (d a : Fin 32) (im : BitVec 11) : Statement (.seqi g d a im) := of_slot rfl rfl
theorem mini (g : Guard) (d a : Fin 32) (im : BitVec 11) : Statement (.mini g d a im) := of_slot rfl rfl
theorem maxi (g : Guard) (d a : Fin 32) (im : BitVec 11) : Statement (.maxi g d a im) := of_slot rfl rfl
theorem li (g : Guard) (d : Fin 32) (imm : BitVec 32) : Statement (.li g d imm) := of_slot rfl rfl
theorem lih (g : Guard) (d : Fin 32) (imm : BitVec 32) : Statement (.lih g d imm) := of_slot rfl rfl
theorem addx (g : Guard) (d a : Fin 32) (imm : BitVec 32) : Statement (.addx g d a imm) := of_slot rfl rfl
theorem andx (g : Guard) (d a : Fin 32) (imm : BitVec 32) : Statement (.andx g d a imm) := of_slot rfl rfl
theorem orx (g : Guard) (d a : Fin 32) (imm : BitVec 32) : Statement (.orx g d a imm) := of_slot rfl rfl
theorem xorx (g : Guard) (d a : Fin 32) (imm : BitVec 32) : Statement (.xorx g d a imm) := of_slot rfl rfl
theorem spset (g : Guard) (d : Fin 8) (a : Fin 32) : Statement (.spset g d a) := of_slot rfl rfl
theorem spany (g : Guard) (d : Fin 32) (a : Fin 8) : Statement (.spany g d a) := of_slot rfl rfl
theorem spall (g : Guard) (d : Fin 32) (a : Fin 8) : Statement (.spall g d a) := of_slot rfl rfl
theorem spcnt (g : Guard) (d : Fin 32) (a : Fin 8) : Statement (.spcnt g d a) := of_slot rfl rfl
theorem scyc (g : Guard) (d : Fin 32) : Statement (.scyc g d) := of_slot rfl rfl
theorem svl (g : Guard) (d : Fin 32) : Statement (.svl g d) := of_slot rfl rfl
theorem bswap (g : Guard) (d a : Fin 32) : Statement (.bswap g d a) := of_slot rfl rfl
theorem anop : Statement .anop := of_slot rfl rfl
theorem aadd (g : Guard) (d a : Fin 16) (b : Fin 32) : Statement (.aadd g d a b) := of_slot rfl rfl
theorem asub (g : Guard) (d a : Fin 16) (b : Fin 32) : Statement (.asub g d a b) := of_slot rfl rfl
theorem aadda (g : Guard) (d a b : Fin 16) : Statement (.aadda g d a b) := of_slot rfl rfl
theorem amov (g : Guard) (d a : Fin 16) : Statement (.amov g d a) := of_slot rfl rfl
theorem asets (g : Guard) (d : Fin 16) (a : Fin 32) : Statement (.asets g d a) := of_slot rfl rfl
theorem agets (g : Guard) (d : Fin 32) (a : Fin 16) : Statement (.agets g d a) := of_slot rfl rfl
theorem aaddi (g : Guard) (d a : Fin 16) (im : BitVec 11) : Statement (.aaddi g d a im) := of_slot rfl rfl
theorem ali (g : Guard) (d : Fin 16) (imm : BitVec 32) : Statement (.ali g d imm) := of_slot rfl rfl
theorem alih (g : Guard) (d : Fin 16) (imm : BitVec 32) : Statement (.alih g d imm) := of_slot rfl rfl
theorem aaddx (g : Guard) (d a : Fin 16) (imm : BitVec 32) : Statement (.aaddx g d a imm) := of_slot rfl rfl
theorem ldspI8 (g : Guard) (d : Fin 32) (ab : Fin 16) (pi : Bool) (im : BitVec 11) : Statement (.ldspI8 g d ab pi im) := of_slot rfl rfl
theorem ldspI16 (g : Guard) (d : Fin 32) (ab : Fin 16) (pi : Bool) (im : BitVec 11) : Statement (.ldspI16 g d ab pi im) := of_slot rfl rfl
theorem ldspI32 (g : Guard) (d : Fin 32) (ab : Fin 16) (pi : Bool) (im : BitVec 11) : Statement (.ldspI32 g d ab pi im) := of_slot rfl rfl
theorem ldspI64 (g : Guard) (d : Fin 32) (ab : Fin 16) (pi : Bool) (im : BitVec 11) : Statement (.ldspI64 g d ab pi im) := of_slot rfl rfl
theorem ldspUi8 (g : Guard) (d : Fin 32) (ab : Fin 16) (pi : Bool) (im : BitVec 11) : Statement (.ldspUi8 g d ab pi im) := of_slot rfl rfl
theorem ldspUi16 (g : Guard) (d : Fin 32) (ab : Fin 16) (pi : Bool) (im : BitVec 11) : Statement (.ldspUi16 g d ab pi im) := of_slot rfl rfl
theorem ldspUi32 (g : Guard) (d : Fin 32) (ab : Fin 16) (pi : Bool) (im : BitVec 11) : Statement (.ldspUi32 g d ab pi im) := of_slot rfl rfl
theorem stspI8 (g : Guard) (d : Fin 32) (ab : Fin 16) (pi : Bool) (im : BitVec 11) : Statement (.stspI8 g d ab pi im) := of_slot rfl rfl
theorem stspI16 (g : Guard) (d : Fin 32) (ab : Fin 16) (pi : Bool) (im : BitVec 11) : Statement (.stspI16 g d ab pi im) := of_slot rfl rfl
theorem stspI32 (g : Guard) (d : Fin 32) (ab : Fin 16) (pi : Bool) (im : BitVec 11) : Statement (.stspI32 g d ab pi im) := of_slot rfl rfl
theorem stspI64 (g : Guard) (d : Fin 32) (ab : Fin 16) (pi : Bool) (im : BitVec 11) : Statement (.stspI64 g d ab pi im) := of_slot rfl rfl
theorem ldgI8 (g : Guard) (d : Fin 32) (ab : Fin 16) (pi : Bool) (im : BitVec 11) : Statement (.ldgI8 g d ab pi im) := of_slot rfl rfl
theorem ldgI16 (g : Guard) (d : Fin 32) (ab : Fin 16) (pi : Bool) (im : BitVec 11) : Statement (.ldgI16 g d ab pi im) := of_slot rfl rfl
theorem ldgI32 (g : Guard) (d : Fin 32) (ab : Fin 16) (pi : Bool) (im : BitVec 11) : Statement (.ldgI32 g d ab pi im) := of_slot rfl rfl
theorem ldgI64 (g : Guard) (d : Fin 32) (ab : Fin 16) (pi : Bool) (im : BitVec 11) : Statement (.ldgI64 g d ab pi im) := of_slot rfl rfl
theorem ldgUi8 (g : Guard) (d : Fin 32) (ab : Fin 16) (pi : Bool) (im : BitVec 11) : Statement (.ldgUi8 g d ab pi im) := of_slot rfl rfl
theorem ldgUi16 (g : Guard) (d : Fin 32) (ab : Fin 16) (pi : Bool) (im : BitVec 11) : Statement (.ldgUi16 g d ab pi im) := of_slot rfl rfl
theorem ldgUi32 (g : Guard) (d : Fin 32) (ab : Fin 16) (pi : Bool) (im : BitVec 11) : Statement (.ldgUi32 g d ab pi im) := of_slot rfl rfl
theorem stgI8 (g : Guard) (d : Fin 32) (ab : Fin 16) (pi : Bool) (im : BitVec 11) : Statement (.stgI8 g d ab pi im) := of_slot rfl rfl
theorem stgI16 (g : Guard) (d : Fin 32) (ab : Fin 16) (pi : Bool) (im : BitVec 11) : Statement (.stgI16 g d ab pi im) := of_slot rfl rfl
theorem stgI32 (g : Guard) (d : Fin 32) (ab : Fin 16) (pi : Bool) (im : BitVec 11) : Statement (.stgI32 g d ab pi im) := of_slot rfl rfl
theorem stgI64 (g : Guard) (d : Fin 32) (ab : Fin 16) (pi : Bool) (im : BitVec 11) : Statement (.stgI64 g d ab pi im) := of_slot rfl rfl
theorem ldf (g : Guard) (d : Fin 32) (ab : Fin 16) (pi : Bool) (im : BitVec 11) : Statement (.ldf g d ab pi im) := of_slot rfl rfl
theorem ldfe (g : Guard) (d : Fin 32) (ab : Fin 16) (pi : Bool) (im : BitVec 11) : Statement (.ldfe g d ab pi im) := of_slot rfl rfl
theorem ste (g : Guard) (d : Fin 32) (ab : Fin 16) (pi : Bool) (im : BitVec 11) : Statement (.ste g d ab pi im) := of_slot rfl rfl
theorem feemp (g : Guard) (ab : Fin 16) (pi : Bool) (im : BitVec 11) : Statement (.feemp g ab pi im) := of_slot rfl rfl
theorem waita (g : Guard) (d : Fin 32) (ab : Fin 16) (pi : Bool) (im : BitVec 11) : Statement (.waita g d ab pi im) := of_slot rfl rfl
theorem amadd (g : Guard) (d : Fin 32) (a : Fin 16) (b : Fin 32) (w : Bool) : Statement (.amadd g d a b w) := of_slot rfl rfl
theorem amand (g : Guard) (d : Fin 32) (a : Fin 16) (b : Fin 32) (w : Bool) : Statement (.amand g d a b w) := of_slot rfl rfl
theorem amor (g : Guard) (d : Fin 32) (a : Fin 16) (b : Fin 32) (w : Bool) : Statement (.amor g d a b w) := of_slot rfl rfl
theorem amxor (g : Guard) (d : Fin 32) (a : Fin 16) (b : Fin 32) (w : Bool) : Statement (.amxor g d a b w) := of_slot rfl rfl
theorem ammin (g : Guard) (d : Fin 32) (a : Fin 16) (b : Fin 32) (w : Bool) : Statement (.ammin g d a b w) := of_slot rfl rfl
theorem ammax (g : Guard) (d : Fin 32) (a : Fin 16) (b : Fin 32) (w : Bool) : Statement (.ammax g d a b w) := of_slot rfl rfl
theorem amswp (g : Guard) (d : Fin 32) (a : Fin 16) (b : Fin 32) (w : Bool) : Statement (.amswp g d a b w) := of_slot rfl rfl
theorem amcas (g : Guard) (d : Fin 32) (a : Fin 16) (b : Fin 32) (w : Bool) : Statement (.amcas g d a b w) := of_slot rfl rfl
theorem ldaqI32 (g : Guard) (d : Fin 32) (ab : Fin 16) (sc : Scope) (im : BitVec 9) : Statement (.ldaqI32 g d ab sc im) := of_slot rfl rfl
theorem ldaqI64 (g : Guard) (d : Fin 32) (ab : Fin 16) (sc : Scope) (im : BitVec 9) : Statement (.ldaqI64 g d ab sc im) := of_slot rfl rfl
theorem strlI32 (g : Guard) (d : Fin 32) (ab : Fin 16) (sc : Scope) (im : BitVec 9) : Statement (.strlI32 g d ab sc im) := of_slot rfl rfl
theorem strlI64 (g : Guard) (d : Fin 32) (ab : Fin 16) (sc : Scope) (im : BitVec 9) : Statement (.strlI64 g d ab sc im) := of_slot rfl rfl
theorem qmark (g : Guard) : Statement (.qmark g) := of_slot rfl rfl
theorem l1fl (g : Guard) (sc : Scope) : Statement (.l1fl g sc) := of_slot rfl rfl
theorem l1inv (g : Guard) (sc : Scope) : Statement (.l1inv g sc) := of_slot rfl rfl
theorem l1fll (g : Guard) (ab : Fin 16) (im : BitVec 11) : Statement (.l1fll g ab im) := of_slot rfl rfl
theorem l1invl (g : Guard) (ab : Fin 16) (im : BitVec 11) : Statement (.l1invl g ab im) := of_slot rfl rfl
theorem ldpf (g : Guard) (ab : Fin 16) (im : BitVec 11) : Statement (.ldpf g ab im) := of_slot rfl rfl
theorem vnop (u : Bool) : Statement (.vnop u) := of_slot rfl rfl
theorem vadd (g : Guard) (u : Bool) (vd : Fin 32) (va vb : Fin 40) (t : Ty) : Statement (.vadd g u vd va vb t) := of_slot rfl rfl
theorem vsub (g : Guard) (u : Bool) (vd : Fin 32) (va vb : Fin 40) (t : Ty) : Statement (.vsub g u vd va vb t) := of_slot rfl rfl
theorem vmul (g : Guard) (u : Bool) (vd : Fin 32) (va vb : Fin 40) (t : Ty) : Statement (.vmul g u vd va vb t) := of_slot rfl rfl
theorem vmulh (g : Guard) (u : Bool) (vd : Fin 32) (va vb : Fin 40) (t : Ty) : Statement (.vmulh g u vd va vb t) := of_slot rfl rfl
theorem vadds (g : Guard) (u : Bool) (vd : Fin 32) (va vb : Fin 40) (t : Ty) : Statement (.vadds g u vd va vb t) := of_slot rfl rfl
theorem vsubs (g : Guard) (u : Bool) (vd : Fin 32) (va vb : Fin 40) (t : Ty) : Statement (.vsubs g u vd va vb t) := of_slot rfl rfl
theorem vmin (g : Guard) (u : Bool) (vd : Fin 32) (va vb : Fin 40) (t : Ty) : Statement (.vmin g u vd va vb t) := of_slot rfl rfl
theorem vmax (g : Guard) (u : Bool) (vd : Fin 32) (va vb : Fin 40) (t : Ty) : Statement (.vmax g u vd va vb t) := of_slot rfl rfl
theorem vabs (g : Guard) (u : Bool) (vd : Fin 32) (va : Fin 40) (t : Ty) : Statement (.vabs g u vd va t) := of_slot rfl rfl
theorem vneg (g : Guard) (u : Bool) (vd : Fin 32) (va : Fin 40) (t : Ty) : Statement (.vneg g u vd va t) := of_slot rfl rfl
theorem vand (g : Guard) (u : Bool) (vd : Fin 32) (va vb : Fin 40) (t : Ty) : Statement (.vand g u vd va vb t) := of_slot rfl rfl
theorem vor (g : Guard) (u : Bool) (vd : Fin 32) (va vb : Fin 40) (t : Ty) : Statement (.vor g u vd va vb t) := of_slot rfl rfl
theorem vxor (g : Guard) (u : Bool) (vd : Fin 32) (va vb : Fin 40) (t : Ty) : Statement (.vxor g u vd va vb t) := of_slot rfl rfl
theorem vnot (g : Guard) (u : Bool) (vd : Fin 32) (va : Fin 40) (t : Ty) : Statement (.vnot g u vd va t) := of_slot rfl rfl
theorem vshl (g : Guard) (u : Bool) (vd : Fin 32) (va vb : Fin 40) (t : Ty) : Statement (.vshl g u vd va vb t) := of_slot rfl rfl
theorem vshr (g : Guard) (u : Bool) (vd : Fin 32) (va vb : Fin 40) (t : Ty) : Statement (.vshr g u vd va vb t) := of_slot rfl rfl
theorem vsra (g : Guard) (u : Bool) (vd : Fin 32) (va vb : Fin 40) (t : Ty) : Statement (.vsra g u vd va vb t) := of_slot rfl rfl
theorem vavg (g : Guard) (u : Bool) (vd : Fin 32) (va vb : Fin 40) (t : Ty) : Statement (.vavg g u vd va vb t) := of_slot rfl rfl
theorem vabsd (g : Guard) (u : Bool) (vd : Fin 32) (va vb : Fin 40) (t : Ty) : Statement (.vabsd g u vd va vb t) := of_slot rfl rfl
theorem vclz (g : Guard) (u : Bool) (vd : Fin 32) (va : Fin 40) (t : Ty) : Statement (.vclz g u vd va t) := of_slot rfl rfl
theorem vpopc (g : Guard) (u : Bool) (vd : Fin 32) (va : Fin 40) (t : Ty) : Statement (.vpopc g u vd va t) := of_slot rfl rfl
theorem vmov (g : Guard) (u : Bool) (vd : Fin 32) (va : Fin 40) (t : Ty) : Statement (.vmov g u vd va t) := of_slot rfl rfl
theorem vrsum (g : Guard) (u : Bool) (vd : Fin 32) (va : Fin 40) (t : Ty) : Statement (.vrsum g u vd va t) := of_slot rfl rfl
theorem vrmax (g : Guard) (u : Bool) (vd : Fin 32) (va : Fin 40) (t : Ty) : Statement (.vrmax g u vd va t) := of_slot rfl rfl
theorem vrmin (g : Guard) (u : Bool) (vd : Fin 32) (va : Fin 40) (t : Ty) : Statement (.vrmin g u vd va t) := of_slot rfl rfl
theorem vperm (g : Guard) (u : Bool) (vd : Fin 32) (va vb : Fin 40) (t : Ty) : Statement (.vperm g u vd va vb t) := of_slot rfl rfl
theorem vzip (g : Guard) (u : Bool) (vd : Fin 32) (va vb : Fin 40) (t : Ty) : Statement (.vzip g u vd va vb t) := of_slot rfl rfl
theorem vunzip (g : Guard) (u : Bool) (vd : Fin 32) (va vb : Fin 40) (t : Ty) : Statement (.vunzip g u vd va vb t) := of_slot rfl rfl
theorem vmaxexp (g : Guard) (u : Bool) (va : Fin 40) (t : Ty) : Statement (.vmaxexp g u va t) := of_slot rfl rfl
theorem vseedx (g : Guard) (u : Bool) (vd : Fin 32) (va : Fin 40) (t : Ty) : Statement (.vseedx g u vd va t) := of_slot rfl rfl
theorem vseedc (g : Guard) (u : Bool) (vd : Fin 32) (va vb : Fin 40) (t : Ty) : Statement (.vseedc g u vd va vb t) := of_slot rfl rfl
theorem vfma (g : Guard) (u : Bool) (vd : Fin 32) (va vb : Fin 40) (t : Ty) (vc : Fin 40) (rm : Rm) : Statement (.vfma g u vd va vb t vc rm) := of_slot rfl rfl
theorem vfms (g : Guard) (u : Bool) (vd : Fin 32) (va vb : Fin 40) (t : Ty) (vc : Fin 40) (rm : Rm) : Statement (.vfms g u vd va vb t vc rm) := of_slot rfl rfl
theorem vfnma (g : Guard) (u : Bool) (vd : Fin 32) (va vb : Fin 40) (t : Ty) (vc : Fin 40) (rm : Rm) : Statement (.vfnma g u vd va vb t vc rm) := of_slot rfl rfl
theorem vfnms (g : Guard) (u : Bool) (vd : Fin 32) (va vb : Fin 40) (t : Ty) (vc : Fin 40) (rm : Rm) : Statement (.vfnms g u vd va vb t vc rm) := of_slot rfl rfl
theorem vsel (g : Guard) (u : Bool) (vd : Fin 32) (va vb : Fin 40) (t : Ty) (ps : Fin 8) : Statement (.vsel g u vd va vb t ps) := of_slot rfl rfl
theorem vaddr (g : Guard) (u : Bool) (vd : Fin 32) (va vb : Fin 40) (t : Ty) (rm : Rm) : Statement (.vaddr g u vd va vb t rm) := of_slot rfl rfl
theorem vmulr (g : Guard) (u : Bool) (vd : Fin 32) (va vb : Fin 40) (t : Ty) (rm : Rm) : Statement (.vmulr g u vd va vb t rm) := of_slot rfl rfl
theorem vcvt (g : Guard) (u : Bool) (vd : Fin 32) (va : Fin 40) (ts td : Ty) (sc : BitVec 6) (rm : Rm) (part : Fin 8) : Statement (.vcvt g u vd va ts td sc rm part) := of_slot rfl rfl
theorem vaddi (g : Guard) (u : Bool) (vd : Fin 32) (va : Fin 40) (t : Ty) (imm : BitVec 32) : Statement (.vaddi g u vd va t imm) := of_slot rfl rfl
theorem vmuli (g : Guard) (u : Bool) (vd : Fin 32) (va : Fin 40) (t : Ty) (imm : BitVec 32) : Statement (.vmuli g u vd va t imm) := of_slot rfl rfl
theorem vandi (g : Guard) (u : Bool) (vd : Fin 32) (va : Fin 40) (t : Ty) (imm : BitVec 32) : Statement (.vandi g u vd va t imm) := of_slot rfl rfl
theorem vori (g : Guard) (u : Bool) (vd : Fin 32) (va : Fin 40) (t : Ty) (imm : BitVec 32) : Statement (.vori g u vd va t imm) := of_slot rfl rfl
theorem vshli (g : Guard) (u : Bool) (vd : Fin 32) (va : Fin 40) (t : Ty) (imm : BitVec 32) : Statement (.vshli g u vd va t imm) := of_slot rfl rfl
theorem vshri (g : Guard) (u : Bool) (vd : Fin 32) (va : Fin 40) (t : Ty) (imm : BitVec 32) : Statement (.vshri g u vd va t imm) := of_slot rfl rfl
theorem vsrai (g : Guard) (u : Bool) (vd : Fin 32) (va : Fin 40) (t : Ty) (imm : BitVec 32) : Statement (.vsrai g u vd va t imm) := of_slot rfl rfl
theorem vbcst (g : Guard) (u : Bool) (vd : Fin 32) (t : Ty) (imm : BitVec 32) : Statement (.vbcst g u vd t imm) := of_slot rfl rfl
theorem vcmpeq (g : Guard) (u : Bool) (pd : Fin 8) (va vb : Fin 40) (t : Ty) : Statement (.vcmpeq g u pd va vb t) := of_slot rfl rfl
theorem vcmpne (g : Guard) (u : Bool) (pd : Fin 8) (va vb : Fin 40) (t : Ty) : Statement (.vcmpne g u pd va vb t) := of_slot rfl rfl
theorem vcmplt (g : Guard) (u : Bool) (pd : Fin 8) (va vb : Fin 40) (t : Ty) : Statement (.vcmplt g u pd va vb t) := of_slot rfl rfl
theorem vcmple (g : Guard) (u : Bool) (pd : Fin 8) (va vb : Fin 40) (t : Ty) : Statement (.vcmple g u pd va vb t) := of_slot rfl rfl
theorem vcmpgt (g : Guard) (u : Bool) (pd : Fin 8) (va vb : Fin 40) (t : Ty) : Statement (.vcmpgt g u pd va vb t) := of_slot rfl rfl
theorem vcmpge (g : Guard) (u : Bool) (pd : Fin 8) (va vb : Fin 40) (t : Ty) : Statement (.vcmpge g u pd va vb t) := of_slot rfl rfl
theorem vcmpun (g : Guard) (u : Bool) (pd : Fin 8) (va vb : Fin 40) (t : Ty) : Statement (.vcmpun g u pd va vb t) := of_slot rfl rfl
theorem vclass (g : Guard) (u : Bool) (pd : Fin 8) (va vb : Fin 40) (t : Ty) : Statement (.vclass g u pd va vb t) := of_slot rfl rfl
theorem vpand (g : Guard) (u : Bool) (pd pa pb : Fin 8) : Statement (.vpand g u pd pa pb) := of_slot rfl rfl
theorem vpor (g : Guard) (u : Bool) (pd pa pb : Fin 8) : Statement (.vpor g u pd pa pb) := of_slot rfl rfl
theorem vpxor (g : Guard) (u : Bool) (pd pa pb : Fin 8) : Statement (.vpxor g u pd pa pb) := of_slot rfl rfl
theorem vpandn (g : Guard) (u : Bool) (pd pa pb : Fin 8) : Statement (.vpandn g u pd pa pb) := of_slot rfl rfl
theorem vexp (g : Guard) (u : Bool) (vd : Fin 32) (va : Fin 40) (t : Ty) : Statement (.vexp g u vd va t) := of_slot rfl rfl
theorem vexp2 (g : Guard) (u : Bool) (vd : Fin 32) (va : Fin 40) (t : Ty) : Statement (.vexp2 g u vd va t) := of_slot rfl rfl
theorem vlog (g : Guard) (u : Bool) (vd : Fin 32) (va : Fin 40) (t : Ty) : Statement (.vlog g u vd va t) := of_slot rfl rfl
theorem vlog2 (g : Guard) (u : Bool) (vd : Fin 32) (va : Fin 40) (t : Ty) : Statement (.vlog2 g u vd va t) := of_slot rfl rfl
theorem vrcp (g : Guard) (u : Bool) (vd : Fin 32) (va : Fin 40) (t : Ty) : Statement (.vrcp g u vd va t) := of_slot rfl rfl
theorem vrsq (g : Guard) (u : Bool) (vd : Fin 32) (va : Fin 40) (t : Ty) : Statement (.vrsq g u vd va t) := of_slot rfl rfl
theorem vsqrt (g : Guard) (u : Bool) (vd : Fin 32) (va : Fin 40) (t : Ty) : Statement (.vsqrt g u vd va t) := of_slot rfl rfl
theorem vtanh (g : Guard) (u : Bool) (vd : Fin 32) (va : Fin 40) (t : Ty) : Statement (.vtanh g u vd va t) := of_slot rfl rfl
theorem vsigm (g : Guard) (u : Bool) (vd : Fin 32) (va : Fin 40) (t : Ty) : Statement (.vsigm g u vd va t) := of_slot rfl rfl
theorem vsilu (g : Guard) (u : Bool) (vd : Fin 32) (va : Fin 40) (t : Ty) : Statement (.vsilu g u vd va t) := of_slot rfl rfl
theorem vgelu (g : Guard) (u : Bool) (vd : Fin 32) (va : Fin 40) (t : Ty) : Statement (.vgelu g u vd va t) := of_slot rfl rfl
theorem vsin (g : Guard) (u : Bool) (vd : Fin 32) (va : Fin 40) (t : Ty) : Statement (.vsin g u vd va t) := of_slot rfl rfl
theorem vcos (g : Guard) (u : Bool) (vd : Fin 32) (va : Fin 40) (t : Ty) : Statement (.vcos g u vd va t) := of_slot rfl rfl
theorem verf (g : Guard) (u : Bool) (vd : Fin 32) (va : Fin 40) (t : Ty) : Statement (.verf g u vd va t) := of_slot rfl rfl
theorem vtbld (g : Guard) (u : Bool) (h : Fin 16) (va vb : Fin 40) : Statement (.vtbld g u h va vb) := of_slot rfl rfl
theorem vtwr (g : Guard) (u : Bool) (vd : Fin 32) (x : Fin 4) (k : Fin 16) (td ts : Ty) (rm : Rm) : Statement (.vtwr g u vd x k td ts rm) := of_slot rfl rfl
theorem vtrd (g : Guard) (u : Bool) (vd : Fin 32) (x : Fin 4) (k : Fin 16) (td ts : Ty) (rm : Rm) : Statement (.vtrd g u vd x k td ts rm) := of_slot rfl rfl
theorem vld (g : Guard) (u : Bool) (vd : Fin 32) (ab : Fin 16) (sp pi : Bool) (im : BitVec 10) : Statement (.vld g u vd ab sp pi im) := of_slot rfl rfl
theorem vst (g : Guard) (u : Bool) (vd : Fin 32) (ab : Fin 16) (sp pi : Bool) (im : BitVec 10) : Statement (.vst g u vd ab sp pi im) := of_slot rfl rfl
theorem vldb (g : Guard) (u : Bool) (vd : Fin 32) (ab : Fin 16) (sp pi : Bool) (im : BitVec 10) : Statement (.vldb g u vd ab sp pi im) := of_slot rfl rfl
theorem vldnt (g : Guard) (u : Bool) (vd : Fin 32) (ab : Fin 16) (sp pi : Bool) (im : BitVec 10) : Statement (.vldnt g u vd ab sp pi im) := of_slot rfl rfl
theorem vstnt (g : Guard) (u : Bool) (vd : Fin 32) (ab : Fin 16) (sp pi : Bool) (im : BitVec 10) : Statement (.vstnt g u vd ab sp pi im) := of_slot rfl rfl
theorem vgath (g : Guard) (u : Bool) (vd : Fin 32) (ab : Fin 16) (sp : Bool) (vi : Fin 40) (es : Width) : Statement (.vgath g u vd ab sp vi es) := of_slot rfl rfl
theorem vscat (g : Guard) (u : Bool) (vd : Fin 32) (ab : Fin 16) (sp : Bool) (vi : Fin 40) (es : Width) : Statement (.vscat g u vd ab sp vi es) := of_slot rfl rfl
theorem vscata (g : Guard) (u : Bool) (vd : Fin 32) (ab : Fin 16) (sp : Bool) (vi : Fin 40) (es : Width) : Statement (.vscata g u vd ab sp vi es) := of_slot rfl rfl
theorem vwiden (g : Guard) (u : Bool) (vd : Fin 32) (va : Fin 40) (t : Ty) : Statement (.vwiden g u vd va t) := of_slot rfl rfl
theorem vnarrow (g : Guard) (u : Bool) (vd : Fin 32) (va vb : Fin 40) (t : Ty) : Statement (.vnarrow g u vd va vb t) := of_slot rfl rfl
theorem vpack (g : Guard) (u : Bool) (vd : Fin 32) (va vb : Fin 40) (t : Ty) : Statement (.vpack g u vd va vb t) := of_slot rfl rfl
theorem vunpack (g : Guard) (u : Bool) (vd : Fin 32) (va : Fin 40) (t : Ty) : Statement (.vunpack g u vd va t) := of_slot rfl rfl
theorem vsumw (g : Guard) (u : Bool) (vd : Fin 32) (va vb : Fin 40) (t : Ty) : Statement (.vsumw g u vd va vb t) := of_slot rfl rfl
theorem vdot2 (g : Guard) (u : Bool) (vd : Fin 32) (va vb : Fin 40) (t : Ty) : Statement (.vdot2 g u vd va vb t) := of_slot rfl rfl
theorem vscale (g : Guard) (u : Bool) (vd : Fin 32) (va vb : Fin 40) (t : Ty) : Statement (.vscale g u vd va vb t) := of_slot rfl rfl
theorem vround (g : Guard) (u : Bool) (vd : Fin 32) (va : Fin 40) (t : Ty) : Statement (.vround g u vd va t) := of_slot rfl rfl
theorem vfloor (g : Guard) (u : Bool) (vd : Fin 32) (va : Fin 40) (t : Ty) : Statement (.vfloor g u vd va t) := of_slot rfl rfl
theorem vslide (g : Guard) (u : Bool) (vd : Fin 32) (va vb : Fin 40) (t : Ty) : Statement (.vslide g u vd va vb t) := of_slot rfl rfl
theorem vrev (g : Guard) (u : Bool) (vd : Fin 32) (va : Fin 40) (t : Ty) : Statement (.vrev g u vd va t) := of_slot rfl rfl
theorem mnop : Statement .mnop := of_slot rfl rfl
theorem mcbset (g : Guard) (sd : Fin 32) (sel : Fin 8) : Statement (.mcbset g sd sel) := of_slot rfl rfl
theorem mlut (g : Guard) (ht hw : Fin 16) (row : Fin 64) (col : Fin 16) (sh : Fin 4) (clr : Bool) : Statement (.mlut g ht hw row col sh clr) := of_slot rfl rfl
theorem mlutg (g : Guard) (ht hw : Fin 16) (row : Fin 64) (col : Fin 16) (sh : Fin 4) (clr : Bool) (hp hs : Fin 16) : Statement (.mlutg g ht hw row col sh clr hp hs) := of_slot rfl rfl
theorem mluts (g : Guard) (ht hw : Fin 16) (row : Fin 64) (col : Fin 16) (sh : Fin 4) (clr : Bool) : Statement (.mluts g ht hw row col sh clr) := of_slot rfl rfl
theorem mlutsg (g : Guard) (ht hw : Fin 16) (row : Fin 64) (col : Fin 16) (sh : Fin 4) (clr : Bool) (hp hs : Fin 16) : Statement (.mlutsg g ht hw row col sh clr hp hs) := of_slot rfl rfl
theorem maclr (g : Guard) (row : Fin 64) (col : Fin 16) (sh : Fin 4) : Statement (.maclr g row col sh) := of_slot rfl rfl
theorem mmask (g : Guard) (ht : Fin 16) : Statement (.mmask g ht) := of_slot rfl rfl
theorem mstat (g : Guard) (sd : Fin 32) (n : Fin 8) : Statement (.mstat g sd n) := of_slot rfl rfl
theorem mcbget (g : Guard) (sd : Fin 32) (sel : Fin 8) : Statement (.mcbget g sd sel) := of_slot rfl rfl
theorem macrd (g : Guard) (vd : Fin 32) (row : Fin 64) (col : Fin 16) : Statement (.macrd g vd row col) := of_slot rfl rfl
theorem macwr (g : Guard) (vd : Fin 32) (row : Fin 64) (col : Fin 16) : Statement (.macwr g vd row col) := of_slot rfl rfl
theorem mbias (g : Guard) (vd : Fin 32) (row : Fin 64) (col : Fin 16) : Statement (.mbias g vd row col) := of_slot rfl rfl
theorem mreset (g : Guard) : Statement (.mreset g) := of_slot rfl rfl
theorem mlutk (g : Guard) (ht hw : Fin 16) (row : Fin 64) (col : Fin 16) (sh : Fin 4) (clr : Bool) : Statement (.mlutk g ht hw row col sh clr) := of_slot rfl rfl
theorem mlutgk (g : Guard) (ht hw : Fin 16) (row : Fin 64) (col : Fin 16) (sh : Fin 4) (clr : Bool) (hp hs : Fin 16) : Statement (.mlutgk g ht hw row col sh clr hp hs) := of_slot rfl rfl
theorem ynop (u : Bool) : Statement (.ynop u) := of_slot rfl rfl
theorem ycopy (g : Guard) (u : Bool) (ab : Fin 16) (pi lock : Bool) (sc : Scope) : Statement (.ycopy g u ab pi lock sc) := of_slot rfl rfl
theorem ypush (g : Guard) (u : Bool) (ab : Fin 16) (pi lock : Bool) (sc : Scope) : Statement (.ypush g u ab pi lock sc) := of_slot rfl rfl
theorem yacc (g : Guard) (u : Bool) (ab : Fin 16) (pi lock : Bool) (sc : Scope) : Statement (.yacc g u ab pi lock sc) := of_slot rfl rfl
theorem yaccp (g : Guard) (u : Bool) (ab : Fin 16) (pi lock : Bool) (sc : Scope) : Statement (.yaccp g u ab pi lock sc) := of_slot rfl rfl
theorem ymx4 (g : Guard) (u : Bool) (ab : Fin 16) (pi lock : Bool) (sc : Scope) : Statement (.ymx4 g u ab pi lock sc) := of_slot rfl rfl
theorem ysadd (g : Guard) (u : Bool) (ab : Fin 16) (pi lock : Bool) (sc : Scope) : Statement (.ysadd g u ab pi lock sc) := of_slot rfl rfl
theorem yatom (g : Guard) (u : Bool) (ab : Fin 16) (pi lock : Bool) (sc : Scope) : Statement (.yatom g u ab pi lock sc) := of_slot rfl rfl
theorem ypref (g : Guard) (u : Bool) (ab : Fin 16) (pi lock : Bool) (sc : Scope) : Statement (.ypref g u ab pi lock sc) := of_slot rfl rfl
theorem yfill (g : Guard) (u : Bool) (ab : Fin 16) (pi lock : Bool) (sc : Scope) : Statement (.yfill g u ab pi lock sc) := of_slot rfl rfl
theorem yrem (g : Guard) (u : Bool) (ab : Fin 16) (pi lock : Bool) (sc : Scope) : Statement (.yrem g u ab pi lock sc) := of_slot rfl rfl
theorem ygath (g : Guard) (u : Bool) (ab : Fin 16) (pi lock : Bool) (sc : Scope) : Statement (.ygath g u ab pi lock sc) := of_slot rfl rfl
theorem yscat (g : Guard) (u : Bool) (ab : Fin 16) (pi lock : Bool) (sc : Scope) : Statement (.yscat g u ab pi lock sc) := of_slot rfl rfl
theorem yline (g : Guard) (u : Bool) (ab : Fin 16) (pi lock : Bool) (sc : Scope) : Statement (.yline g u ab pi lock sc) := of_slot rfl rfl
theorem ycancel (g : Guard) (u : Bool) : Statement (.ycancel g u) := of_slot rfl rfl
theorem yldv (g : Guard) (u : Bool) (ab : Fin 16) (pi : Bool) (vd : Fin 32) : Statement (.yldv g u ab pi vd) := of_slot rfl rfl

end Sys2Proof.Laws.Slots
end

