-- ==== Sys2Proof/Tests/Slice0.lean ====
section
/-! SUPPORT. Tests: what is well formed, words of the spec decoded, and a witness for the hypotheses of each obligation. -/

namespace Sys2Proof.Tests

open Sys2Proof Sys2Proof.Machine

/-! One theorem after another: a `decide` waits for every earlier check, and the waiting ones would each hold a thread. -/
set_option Elab.async false

/-- A core of die `d` about to issue, the rest of the device as after reset. -/
def boxed (d : Fin 4) (c : Fin 68) (f : Core → Core) : State :=
  { State.reset.modCore d c (fun k => f k.placed) with cur := (d, c) }

/-- Engine core 0 of die 0 about to issue. -/
def box (f : Core → Core) : State := boxed 0 0 f

def guard : Guard := ⟨false, 0⟩

def ops : List Op → List Slot := List.map fun o => ⟨guard, o⟩

/-- Registers of the tests: s1 = 6, s2 = 7, s3 = 2^64 - 1, a1 = 64, a2 = 0x7FFF8, lc1 = 2. -/
def some64 (k : Core) : Core :=
  { k with regs := { k.regs with s := ((k.regs.s.set 1 6).set 2 7).set 3 0xFFFFFFFFFFFFFFFF, a := (k.regs.a.set 1 64).set 2 0x7FFF8,
                                 lc := (k.regs.lc.set 1 2).set 2 1, b := k.regs.b.set 1 0x100 } }

def base : State := box some64

/-! What is well formed: one ill-formed term for each check (02_encodings.md R51, R54; 05_vector.md R135, R140, R151, R163). -/

def ill (l : List Op) : Bool := l.all fun o => (Slot.mk guard o).wf == false

theorem test_wf_barrier_index : ill [.c (.barinit 1 1024), .c (.bararv .c 1024), .c (.barwait .c 1024)] = true := by decide

theorem test_wf_shift_amount : ill [.s (.shli 1 2 64), .s (.shri 1 2 64), .s (.srai 1 2 64), .s (.roli 1 2 64)] = true := by decide

theorem test_wf_both_integer_and_float :
    ill [.v false (.vadd 1 2 3 .e5m3), .v false (.vsub 1 2 3 .e5m3), .v false (.vmul 1 2 3 .e5m3), .v false (.vmin 1 2 3 .e5m3),
      .v false (.vmax 1 2 3 .e5m3), .v false (.vabs 1 2 .e5m3), .v false (.vneg 1 2 .e5m3), .v false (.vabsd 1 2 3 .e5m3),
      .v false (.vrsum 1 2 .e5m3), .v false (.vrmax 1 2 .e5m3), .v false (.vrmin 1 2 .e5m3), .v false (.vaddi 1 2 .e5m3 0),
      .v false (.vmuli 1 2 .e5m3 0), .v false (.vcmpeq 1 2 3 .e5m3), .v false (.vcmpne 1 2 3 .e5m3), .v false (.vcmplt 1 2 3 .e5m3),
      .v false (.vcmple 1 2 3 .e5m3), .v false (.vcmpgt 1 2 3 .e5m3), .v false (.vcmpge 1 2 3 .e5m3)] = true := by decide

theorem test_wf_integer_only :
    ill [.v false (.vmulh 1 2 3 .bf16), .v false (.vadds 1 2 3 .bf16), .v false (.vsubs 1 2 3 .f32), .v false (.vand 1 2 3 .bf16),
      .v false (.vor 1 2 3 .bf16), .v false (.vxor 1 2 3 .bf16), .v false (.vnot 1 2 .bf16), .v false (.vshl 1 2 3 .bf16),
      .v false (.vshr 1 2 3 .bf16), .v false (.vsra 1 2 3 .bf16), .v false (.vavg 1 2 3 .bf16), .v false (.vclz 1 2 .bf16),
      .v false (.vpopc 1 2 .bf16), .v false (.vandi 1 2 .bf16 0), .v false (.vori 1 2 .bf16 0), .v false (.vshli 1 2 .i8 8),
      .v false (.vshri 1 2 .i16 16), .v false (.vsrai 1 2 .i32 32)] = true := by decide

theorem test_wf_float_only :
    ill [.v false (.vfma 1 2 3 .i8 4 .rne), .v false (.vfms 1 2 3 .i8 4 .rne), .v false (.vfnma 1 2 3 .i8 4 .rne),
      .v false (.vfnms 1 2 3 .i8 4 .rne), .v false (.vaddr 1 2 3 .i8 .rne), .v false (.vmulr 1 2 3 .i8 .rne), .v false (.vcmpun 1 2 3 .i8),
      .v false (.vclass 1 2 3 .i8), .v false (.vscale 1 2 3 .i8), .v false (.vround 1 2 .i8), .v false (.vfloor 1 2 .i8)] = true := by decide

theorem test_wf_special_functions :
    ill [.v false (.vexp 1 2 .f32), .v false (.vexp2 1 2 .f32), .v false (.vlog 1 2 .f32), .v false (.vlog2 1 2 .f32), .v false (.vrcp 1 2 .f32),
      .v false (.vrsq 1 2 .f32), .v false (.vsqrt 1 2 .f32), .v false (.vtanh 1 2 .f32), .v false (.vsigm 1 2 .f32), .v false (.vsilu 1 2 .f32),
      .v false (.vgelu 1 2 .f32), .v false (.vsin 1 2 .f32), .v false (.vcos 1 2 .f32), .v false (.verf 1 2 .f32)] = true := by decide

theorem test_wf_width_pairs :
    ill [.v false (.vwiden 1 2 .i32), .v false (.vnarrow 1 2 3 .f32), .v false (.vpack 1 2 3 .bf16), .v false (.vunpack 1 2 .u32),
      .v false (.vsumw 1 2 3 .bf16), .v false (.vdot2 1 2 3 .f32), .v false (.vtwr 1 0 0 .i32 .i16 .rne), .v false (.vtrd 1 0 0 .bf16 .i8 .rne)]
      = true := by decide

theorem test_wf_conversions_and_seeds :
    ill [.v false (.vcvt 1 2 .i8 .i8 2 .rne 0), .v false (.vmaxexp 1 .i8), .v false (.vseedx 1 2 .u8), .v false (.vseedc 1 2 3 .i32)] = true := by
  decide

theorem test_wf_matrix_fields :
    ill [.m (.mcbset 1 5), .m (.mstat 1 5), .m (.mcbget 1 6), .m (.macrd 1 0 15), .m (.macwr 1 0 15), .m (.mbias 1 0 15)] = true := by decide

theorem test_wf_nop_guard : ([Op.c .cnop, .s .snop, .a .anop, .v true .vnop, .m .mnop, .y false .ynop].all fun o =>
    (Slot.mk ⟨true, 1⟩ o).wf == false) = true := by decide

/-! Witnesses: each names the obligation whose hypotheses it meets. -/

theorem witness_NopsIssue : ([Instr.cnop, .snop, .anop, .vnop false, .vnop true, .mnop, .ynop false, .ynop true].all fun i =>
    match i.slot with | some x => base.ready x | none => false) = true := by decide +kernel

def scalars : List ScalarOp :=
  [.add 4 1 2, .sub 4 1 2, .mul 4 1 2, .mulh 4 3 3, .mulhu 4 3 3, .and 4 1 2, .or 4 1 2, .xor 4 1 2, .andn 4 1 2, .orn 4 1 2, .shl 4 1 2,
   .shr 4 3 2, .sra 4 3 2, .rol 4 3 2, .min 4 1 3, .max 4 1 3, .minu 4 1 3, .maxu 4 1 3, .slt 4 1 3, .sltu 4 1 3, .seq 4 1 1, .sne 4 1 2,
   .clz 4 0, .mov 4 1, .ctz 4 0, .popc 4 3, .sext 4 3 .e8, .zext 4 3 .e32, .addi 4 1 2047, .muli 4 1 2047, .andi 4 1 5, .ori 4 1 5, .xori 4 1 5,
   .shli 4 1 63, .shri 4 3 63, .srai 4 3 63, .roli 4 3 63, .slti 4 1 5, .sltui 4 1 5, .seqi 4 1 6, .mini 4 1 5, .maxi 4 1 5, .li 4 0x80000000,
   .lih 4 1, .addx 4 1 1, .andx 4 1 1, .orx 4 1 1, .xorx 4 1 1, .spany 4 0, .spall 4 0, .spcnt 4 0, .scyc 4, .svl 4, .bswap 4 1]

theorem witness_ScalarResults : (scalars.all fun o => (scalarResult base o).isSome && base.ready ⟨guard, .s o⟩) = true ∧
    base.ready ⟨guard, .s (.spset 1 1)⟩ = true ∧ base.ready ⟨guard, .s (.spset 0 1)⟩ = true ∧ base.quiet = true := by decide +kernel

def addresses : List AddressOp :=
  [.aadd 3 1 1, .asub 3 1 1, .aadda 3 1 2, .amov 3 1, .asets 3 1, .agets 3 1, .aaddi 3 1 2047, .ali 3 0x80000000, .alih 3 1, .aaddx 3 1 1]

theorem witness_PlainResults_address : (addresses.all fun o => (addressResult base o).isSome && base.ready ⟨guard, .a o⟩) = true := by decide +kernel

def controls : List ControlOp :=
  [.pbr 1 0x3FFFF, .pbrs 1 0, .bget 4 1, .lcset 1 0xFFFF, .lcsets 1 3, .lcget 4 1, .skset 0 true, .sksets 0 1, .skget 4 0, .shget 4 0, .fdset 1 1,
   .fdget 4 1, .hget 4 1, .hstat 4 1]

theorem witness_PlainResults_control : (controls.all fun o => (controlResult base o).isSome && base.ready ⟨guard, .c o⟩) = true := by decide +kernel

theorem witness_PlainResults_matrix : ([MatrixOp.mcbset 1 0, .mcbset 1 4, .mcbget 1 0, .mcbget 1 5, .mstat 1 0, .mstat 1 4].all fun o =>
    (matrixResult base o).isSome && base.ready ⟨guard, .m o⟩) = true := by decide +kernel

/-- Branches on all lanes and on none, a counter at 0, at 1 and above, and BRX to an aligned address. -/
theorem witness_Branches : ([ControlOp.br 1, .brp 1 false 0, .brp 1 true 0, .brp 1 false 1, .brp 1 true 1, .brlc 1 0, .brlc 1 1, .brlc 1 2, .brl 1 2,
    .brx 0].all fun o => (branchTo base ⟨guard, .c o⟩ o).isSome && base.ready ⟨guard, .c o⟩) = true := by decide +kernel

theorem witness_ResultFrame : base.ready ⟨guard, .s (.add 4 1 2)⟩ = true ∧ base.quiet = true ∧
    ([Dst.s 4, .a 3, .b 1, .lc 1, .sk 0, .f 1, .sh 1, .sl true, .cb 0, .cb 4, .v 1, .p 0, .p 1, .tile 3 15, .csr 0x010].all fun d =>
      (landed (base.wentOn ⟨guard, .s (.add 4 1 2)⟩ base.here.regs []) { base.write 1 1 d 1 none with en := 2 ^ 256 - 1 }).isSome) = true := by
  decide +kernel

theorem witness_IssueFrame : base.ready ⟨guard, .s (.mul 4 1 2)⟩ = true ∧ base.quiet = true ∧
    (∀ w ∈ [base.write 1 2 (.s 4) 42 (some 2)], base.here.now + 1 < w.land) ∧
    (let a : Acc := { base.blank with spad := [(0, 5)], halt := true, pends := [base.write 1 2 (.s 4) 42 (some 2)] }
     a.after = none ∧ a.rft = false ∧ a.sret = false ∧ a.post.length = 0) := by decide +kernel

theorem witness_AddResult : base.ready ⟨guard, .s (.add 4 1 2)⟩ = true ∧ base.quiet = true := by decide +kernel

theorem witness_MulLands : base.ready ⟨guard, .s (.mul 4 1 2)⟩ = true ∧ base.here.pend = [] ∧ base.here.stay = [] ∧ base.here.srb.length ≤ 48 ∧ base.here.waitc = none ∧
    (slotRefusal (base.here.profile base.cur.2) ⟨.always, .s .snop⟩).isNone = true ∧ base.here.addrBreak = none ∧
    ∀ i : Fin 4, (base.here.csr.bpCtl[i]).getLsbD 0 = false := by decide +kernel

/-- a2 = 0x7FFF8 is the last doubleword of the scratchpad. -/
theorem witness_ScratchpadAccesses_loads : ([AddressOp.ldspI8 4 2 false 7, .ldspI16 4 2 false 6, .ldspI32 4 2 false 4, .ldspI64 4 2 true 8,
    .ldspUi8 4 2 false 7, .ldspUi16 4 2 false 6, .ldspUi32 4 2 false 4].all fun o => match spadLoad o with
    | some (w, _, _, ab, pi, i) => base.ready ⟨guard, .a o⟩ && base.spadOk ⟨guard, .a o⟩ true false (base.gmemEa ab pi i) w
    | none => false) = true := by decide +kernel

theorem witness_ScratchpadAccesses_stores : ([AddressOp.stspI8 4 2 false 7, .stspI16 4 2 false 6, .stspI32 4 2 false 4, .stspI64 4 2 true 8].all fun o =>
    match spadStore o with
    | some (w, _, ab, pi, i) => base.ready ⟨guard, .a o⟩ && base.spadOk ⟨guard, .a o⟩ false true (base.gmemEa ab pi i) w && base.quiet &&
      swf base.here.spad
    | none => false) = true := by decide +kernel

/-- `base` with a large page at 0, so that a barrier area and a vector lie in it, and BARBASE 0x100. -/
def wide (k : Core) : Core :=
  { some64 k with tlb := [⟨0, 0, 21, 0, true, true, true, true, false, false, true⟩], thr := { k.thr with barBase := 0x100 } }

def page : State := box wide

def at64 : Xlate := ⟨64, false, false⟩

theorem witness_GlobalAccesses_loads : ∀ o ∈ [AddressOp.ldgI8 4 1 true 1, .ldgI16 4 1 true 2, .ldgI32 4 1 true 4, .ldgI64 4 1 true 8, .ldgUi8 4 1 true 1,
    .ldgUi16 4 1 true 2, .ldgUi32 4 1 true 4], (globalLoad o).isSome = true ∧ page.ready ⟨guard, .a o⟩ = true := by decide +kernel

theorem witness_GlobalAccesses_loads_ok : page.globalOk ⟨guard, .a (.ldgI64 4 1 true 8)⟩ .read (page.gmemEa 1 true 8) 8 true at64 .mem :=
  ⟨rfl, by decide +kernel⟩

theorem witness_GlobalAccesses_stores : ∀ o ∈ [AddressOp.stgI8 4 1 true 1, .stgI16 4 1 true 2, .stgI32 4 1 true 4, .stgI64 4 1 true 8],
    (globalStore o).isSome = true ∧ page.ready ⟨guard, .a o⟩ = true := by decide +kernel

theorem witness_GlobalAccesses_stores_ok : page.globalOk ⟨guard, .a (.stgI64 4 1 true 8)⟩ .write (page.gmemEa 1 true 8) 8 false at64 .mem :=
  ⟨rfl, by decide +kernel⟩

theorem witness_OrderedAccesses : ∀ o ∈ [AddressOp.ldaqI32 4 1 .c 0, .ldaqI64 4 1 .s 0, .strlI32 4 1 .c 0, .strlI64 4 1 .s 0],
    (orderedForm o).isSome = true ∧ page.ready ⟨guard, .a o⟩ = true ∧ page.acquirePoison 0 0 .c 64 = false ∧
    page.acquirePoison 0 0 .s 64 = false := by decide +kernel

theorem witness_OrderedAccesses_load : page.globalOk ⟨guard, .a (.ldaqI64 4 1 .s 0)⟩ .read (page.areg 1 + (0 : BitVec 9).signExtend 64) 8 true at64
    .mem := ⟨rfl, by decide +kernel⟩

theorem witness_OrderedAccesses_store : page.globalOk ⟨guard, .a (.strlI64 4 1 .s 0)⟩ .write (page.areg 1 + (0 : BitVec 9).signExtend 64) 8 false
    at64 .mem := ⟨rfl, by decide +kernel⟩

/-- The word at 64 full and holding 9, so that WAITA of s1 = 6 passes. -/
def fullBox : State := box fun k => { some64 k with full := [16], spad := [(64, 9)] }

/-- FullEmpty: the forms that pass on a full word, those that pass on an empty one, and those that wait. -/
theorem witness_FullEmpty :
    ([AddressOp.ldf 4 1 true 4, .ldfe 4 1 false 0, .feemp 1 false 0, .waita 1 1 false 0, .ste 1 1 false 0].all fun o =>
      fullBox.ready ⟨guard, .a o⟩ && fullBox.spadOk ⟨guard, .a o⟩ true true 64 4 && base.ready ⟨guard, .a o⟩ &&
      base.spadOk ⟨guard, .a o⟩ true true 64 4) = true ∧
    fullBox.here.full.contains (64 / 4) = true ∧ base.here.full.contains (64 / 4) = false ∧
    (fullBox.sreg 1).toNat % 2 ^ 32 ≤ readLE fullBox.here.spad 64 4 := by decide +kernel

def atomics : List AddressOp :=
  [.amadd 4 1 2 false, .amand 4 1 2 true, .amor 4 1 2 true, .amxor 4 1 2 true, .ammin 4 1 2 true, .ammax 4 1 2 true, .amswp 4 1 2 true,
   .amcas 4 1 2 true]

theorem witness_ScratchpadAtomics : isTaproot base.cur.2 = false ∧ (atomics.all fun o => (atomicForm o).isSome && base.ready ⟨guard, .a o⟩ &&
    base.spadOk ⟨guard, .a o⟩ true true (base.areg 1) 8) = true := by decide +kernel

/-- Taproot core 0 of die 0 about to issue, in supervisor mode without translation. -/
def tap : State := boxed 0 64 some64

theorem witness_HomeAtomics : (atomics.all fun o => (atomicForm o).isSome && tap.ready ⟨guard, .a o⟩) = true ∧ isTaproot tap.cur.2 = true ∧
    canonical (tap.areg 1) = true ∧ (tap.areg 1).toNat % 8 = 0 ∧ bits 64 45 44 = 0 ∧ tap.cacheable 64 = true ∧
    tap.holdsAtomic tap.cur.1 tap.cur.2 (rangeOf 64 8) = false ∧ tap.homePoison 0 64 64 = false := by decide +kernel

theorem witness_HomeAtomics_translated : tap.translate (tap.who tap.cur.1 tap.cur.2) .atomic (tap.areg 1) = (.ok at64, tap) ∧
    tap.globalOk ⟨guard, .a (.amadd 4 1 2 true)⟩ .atomic (tap.areg 1) 8 true at64 .mem := ⟨rfl, rfl, by decide +kernel⟩

/-- OrderForms, each form; a2 = 0x7FFF8 in a page, and an address that is not canonical. -/
theorem witness_OrderForms : ([AddressOp.qmark, .l1fl .c, .l1fl .s, .l1inv .c, .l1inv .s, .l1fll 1 0, .l1invl 1 0, .ldpf 1 0].all fun o =>
    page.ready ⟨guard, .a o⟩) = true ∧ canonical (page.areg 1 + (0 : BitVec 11).signExtend 64) = true ∧ page.cacheable 64 = true ∧
    canonical (0x800000000000 : W64) = false := by decide +kernel

theorem witness_OrderForms_located : page.locate (page.who page.cur.1 page.cur.2) .read (page.areg 1 + (0 : BitVec 11).signExtend 64) 1 =
    (.ok (at64, .mem), page) := rfl

/-- ShapeGrants: the least and the greatest vector request, and all of a matrix grant. -/
theorem witness_ShapeGrants :
    ([(1, 0), (0x100, 0), (0x1FF, 0), (0x40000000 + 2 ^ 20 + 2 ^ 13 + 2 ^ 5, 1), (0x7FFFFFE0, 1)].all fun r => !shapeBad r.1 && shKind r.1 == r.2) = true ∧
    (box fun k => { k with regs := { k.regs with s := k.regs.s.set 1 0x1FF } }).ready ⟨guard, .c (.shape 1 1 2)⟩ = true ∧
    base.ready ⟨guard, .c (.shapex 1 2 0x7FFFFFE0)⟩ = true ∧ base.here.handler = false := by decide +kernel

/-- CsrAccess: the vector of the handler on an engine core, and a register of the Taproot operating system on a Taproot core. -/
theorem witness_CsrAccess : ([ControlOp.csrrd 1 0x010, .csrwr 1 0x010, .csrset 1 0x010, .csrclr 1 0x010].all fun o =>
    base.ready ⟨guard, .c o⟩) = true ∧ base.csrAllowed 0x010 true = true ∧ base.csrAllowed 0x013 false = true ∧
    tap.ready ⟨guard, .c (.csrwr 1 0x401)⟩ = true ∧ tap.csrAllowed 0x401 true = true ∧ base.quiet = true ∧ tap.quiet = true := by decide +kernel

theorem witness_SequencerForms : ([ControlOp.halt, .delay 0, .delay 0xFFFF, .btok 1 .v0, .btok 1 .y1, .qfence 0, .qfence 31].all fun o =>
    base.ready ⟨guard, .c o⟩) = true ∧ base.here.pend = [] ∧ base.here.srb.length ≤ 48 ∧ base.here.waitc = none ∧
    (slotRefusal (base.here.profile base.cur.2) ⟨.always, .c .cnop⟩).isNone = true ∧ base.here.addrBreak = none ∧
    ∀ i : Fin 4, (base.here.csr.bpCtl[i]).getLsbD 0 = false := by decide +kernel

/-- A ring of two 64-byte slots from offset 0x100 of the scratchpad, uncommitted entries allowed where `win` says so, with two entries pushed. -/
def ring (win : Bool) (h c t a : BitVec 32) : Ring :=
  ⟨true, 1, BitVec.ofNat 64 (2 * 2 ^ 32 + 2 ^ 24 + 0x100 + if win then 2 ^ 19 else 0), h, c, t, a, none, [], []⟩

def ringBox (g : Ring) : State :=
  box fun k => { some64 k with rings := k.rings.set 1 g, regs := { (some64 k).regs with s := (some64 k).regs.s.set 4 0x201000100 } }

/-- RingForms: an initialisation, a ring closed by zero, and waits, reservations and advances of 0, of some and of all entries. -/
theorem witness_RingForms :
    (let s := ringBox (ring false 0 0 2 2)
     [ControlOp.hinit 2 4, .hinit 1 0, .hwait 1 0, .hwait 1 2, .hres 1 0, .hadv 1 0, .hadv 1 2].all fun o =>
      (ringEffect s o).isSome && s.ready ⟨guard, .c o⟩) = true ∧
    (let s := ringBox (ring true 0 1 1 1)
     [ControlOp.hres 1 1, .hadv 1 1].all fun o => (ringEffect s o).isSome && s.ready ⟨guard, .c o⟩) = true := by decide +kernel

/-- RingCommit of none, of one and of both pushed entries (s0 = 0, s5 = 1, s6 = 2). -/
theorem witness_RingCommit :
    (let s := ringBox (ring true 0 0 2 2)
     let r := s.here.rings[(1 : Fin 16)]
     s.ready ⟨guard, .c (.hcommit 1 0)⟩ && r.init && r.win && decide ((s.sreg 0).toNat ≤ (r.a - r.c).toNat) &&
      decide (2 ≤ (r.a - r.c).toNat) && decide (2 ≤ (r.t - r.c).toNat)) = true := by decide +kernel

/-- SlotTraps, one operation or more for each line of `slotFault`; s3 = 2^64 - 1, a3 = 2^63, f and sh as after reset. -/
def odd : State := box fun k =>
  { some64 k with regs := { (some64 k).regs with a := (some64 k).regs.a.set 3 0x8000000000000000, p := (some64 k).regs.p.set 1 1 }
                  rings := k.rings.set 1 (ring true 0 0 2 2) }

theorem witness_SlotTraps : ([Op.c (.brp 1 false 1), .c (.brx 3), .c (.pbrs 1 3), .c (.shape 1 3 2), .c (.shapex 1 2 0), .c (.hinit 1 3), .c (.hwait 2 0),
    .c (.hwait 1 3), .c (.hres 1 3), .c (.hadv 1 3), .c (.hadv 1 1), .c (.hcommit 1 3), .c (.barinit 1 0), .c (.bararv .c 0), .c (.barwait .c 0),
    .c (.gjoin 3), .c (.gleave 3), .c (.lpatch 3 1 0), .c (.larm 1 3), .c .rft, .c (.csrrd 1 0x400), .c (.csrwr 1 0x013), .c (.csrset 1 0x7FF),
    .c (.csrclr 1 0x400), .a (.ldspI8 4 3 false 0), .a (.ldspI64 4 2 false 1), .a (.stspI16 4 1 false 1), .a (.ldgI32 4 1 false 1),
    .a (.stgI64 4 1 false 4), .a (.ldaqI64 4 1 .c 4), .a (.strlI32 4 1 .c 2), .a (.ldf 4 1 false 2), .a (.ldfe 4 1 false 2), .a (.ste 4 1 false 2),
    .a (.feemp 1 false 2), .a (.waita 4 1 false 2), .m (.maclr 0 0 0), .m (.mmask 2), .m (.mlut 1 2 0 0 0 false), .y false (.ycopy 2 false false .c)].all
    fun o => (slotFault odd o).isSome && odd.ready ⟨guard, o⟩) = true ∧
    (let s := box fun k => { some64 k with handler := true }
     [Op.c (.shape 1 1 2), .c (.shapex 1 2 1)].all fun o => (slotFault s o).isSome && s.ready ⟨guard, o⟩) = true ∧
    (let s := boxed 0 64 fun k => { k with tap := { k.tap with sm := false } }
     [Op.c .sret, .c .wfi, .c (.csrrd 1 0x401)].all fun o => (slotFault s o).isSome && s.ready ⟨guard, o⟩) = true := by decide +kernel

/-- `base` with the head word 0xB0000001 behind the bundle at 0. -/
def headed : State := { base with mem := writeLE [] 8 4 0xB0000001 }

theorem witness_AfterCauses : ∀ o ∈ [ControlOp.trap 5, .brk 5, .scall 5], headed.ready ⟨guard, .c o⟩ = true ∧
    (headed.issuedWrites ⟨guard, .c o⟩ []).settleNext 0 0 = (headed.issuedWrites ⟨guard, .c o⟩ [], some true) := by decide +kernel

/-- TrapEntry: a Taproot core; an engine core whose handler takes the cause; one whose handler does not. -/
def trapBox : State := box fun k => { some64 k with csr := { k.csr with tvec := 0x1000, tdeleg := 0 } }

theorem witness_TrapEntry : isTaproot tap.cur.2 = true ∧ isTaproot trapBox.cur.2 = false ∧ (trapBox.here.memq.all fun m => m.kind.dst.isNone) = true ∧
    trapBox.here.handlerTakes { cause := .align } = true ∧ base.here.handlerTakes { cause := .align } = false ∧
    (base.saveContext 0 0 .trapped 2 (({ cause := .align } : Trap).frame base.here)).isSome = true := by decide +kernel

/-- TrapEntry: a core that has nothing to take home, its save area at 0x200000, with a write that lands three cycles on. -/
def savable : State := box fun k =>
  { some64 k with run := .running, thr := { k.thr with csa := 0x200000 }, spad := [(0, 5), (0x7FFFF, 9)], pend := [⟨3, 1, 0, 0, .s 4, 5, 0, none, [], false, none⟩],
                  rings := k.rings.set 5 (ring true 0 1 2 2) }

theorem witness_TrapEntry_save : savable.here.memq = [] ∧ savable.here.stats = [] ∧ savable.here.l1 = [] ∧
    (savable.slice 0 (clusterOf 0)).lines = [] ∧ (savable.die 0).bridge = [] ∧ savable.here.run = .running ∧ savable.hasMem savable.here.thr.csa = true ∧
    Memory.wf savable.mem = true ∧ savable.here.fitsArea ∧ isTaproot 0 = false ∧
    (savable.saveContext 0 0 .ready 1 (({ cause := .preempt } : Trap).frame savable.here)).isSome = true := by unfold Core.fitsArea; decide +kernel

/-- The launch record of record 0, as read, names the save area (13_scheduling.md Table 13-1), so a restore finds it. -/
theorem witness_TrapEntry_restore : (let s := savable.setRec 0 { (savable.die 0).recd 0 with image := 0x200000 * 2 ^ (8 * 0x18) }
    ((s.saveContext 0 0 .ready 1 (({ cause := .preempt } : Trap).frame s.here)).map fun r => r.recCsa 0 s.here.thr.idx) = some s.here.thr.csa) ∧
    savable.here.handler = false ∧ savable.here.held = [] ∧ (∀ y : Fin 2, savable.here.eng.spill[y] = []) ∧ savable.here.now < 2 ^ 48 ∧
    1 ≤ savable.here.regs.vl ∧ savable.here.regs.vl ≤ 256 ∧ savable.here.regs.p[(0 : Fin 8)] = BitVec.allOnes 256 := by decide +kernel

def handlerBox : State := box fun k => { some64 k with handler := true }

theorem witness_HandlerReturn : handlerBox.ready ⟨guard, .c .rft⟩ = true ∧ isTaproot handlerBox.cur.2 = false ∧ handlerBox.here.handler = true ∧
    handlerBox.here.pend = [] ∧ handlerBox.here.waitc = none := by decide +kernel

/-- SupervisorForms: SRET and WFI in supervisor mode, WFI with an interrupt pending and with none, TBWAIT on an idle word. -/
def softTap : State := (boxed 0 64 fun k => { k with tap := { k.tap with irqEn := 0x80, ie := false } }).modDie 0 fun x => { x with trSoft := 1 }

theorem witness_SupervisorForms : tap.ready ⟨guard, .c .sret⟩ = true ∧ isTaproot tap.cur.2 = true ∧ tap.quiet = true ∧ tap.here.tap.sm = true ∧
    tap.ready ⟨guard, .c .wfi⟩ = true ∧ tap.trip 0 64 &&& tap.here.tap.irqEn.toNat = 0 ∧ tap.ready ⟨guard, .c (.tbwait 1 2)⟩ = true ∧
    tap.cacheable 64 = true ∧ bits (readLE tap.mem 64 8) 63 48 = 0 ∧ softTap.ready ⟨guard, .c .wfi⟩ = true ∧ softTap.here.tap.sm = true ∧
    softTap.trip 0 64 &&& softTap.here.tap.irqEn.toNat ≠ 0 ∧ (tap.here.aheadOf (rangeOf 64 8) || (tap.atHome 0 64 64 8).2.relOwed 0 64) = false ∧
    bits (tap.atHome 0 64 64 8).1 63 48 = 0 := by decide +kernel

theorem witness_SupervisorForms_home : (boxed 0 64 fun k => { k with regs := { k.regs with s := k.regs.s.set 2 64 } }).homeOk 64 at64 .mem :=
  ⟨rfl, by decide, by decide +kernel⟩

/-- BarrierForms: barriers 0 and 1,023 of the thread's area, a barrier by its address, both kinds of BARREM operand, an idle word, a set with
room. -/
def member : State := box fun k => { wide k with regs := { (wide k).regs with s := ((wide k).regs.s.set 4 0x3FF001F).set 5 0x800000000000001F } }

theorem witness_BarrierForms :
    ([ControlOp.barinit 1 0, .barinit 1 1023, .bararv .c 0, .bararv .s 1023, .barwait .c 0, .barwait .s 1023, .barrem 0 .c, .barrem 5 .p, .gjoin 4,
      .gleave 0].all fun o => member.ready ⟨guard, .c o⟩) = true ∧
    member.here.thr.barBase ≠ 0 ∧ (member.sreg 0).toNat.testBit 63 = false ∧ (member.sreg 5).toNat.testBit 63 = true ∧
    isTaproot member.cur.2 = false ∧ bits (member.sreg 5).toNat 62 5 = 0 ∧ member.here.memq = [] ∧ member.cacheable 0x100 = true ∧
    (let e := member.expose 0 0 0x100
     let w := readLE e.mem 0x100 8
     w.testBit 0 ≠ w.testBit 1 ∨ bits w 63 48 = 0) ∧
    bits (member.sreg 4).toNat 15 5 = 0 ∧ bits (member.sreg 4).toNat 63 26 = 0 ∧ member.sets 0 0 31 = [] ∧ bits (member.sreg 0).toNat 63 5 = 0 ∧
    member.late = false ∧ (member.here.aheadOf (rangeOf 0x100 8) || (member.atHome 0 0 0x100 8).2.relOwed 0 0) = false ∧ bits (member.atHome 0 0 0x100 8).1 63 48 = 0 ∧
    ([ControlOp.gjoin 4, .gleave 0].all fun o => ({ member with late := true } : State).ready ⟨guard, .c o⟩) = true := by
  decide +kernel

theorem witness_BarrierForms_words :
    member.barOk .atomic (member.ownBarVa 0) ⟨0x100, false, false⟩ .mem ∧ member.barOk .atomic (member.ownBarVa 1023) ⟨0x20F8, false, false⟩ .mem ∧
    member.barOk .read (member.ownBarVa 0) ⟨0x100, false, false⟩ .mem ∧ member.barOk .atomic (member.sreg 0) ⟨0, false, false⟩ .mem :=
  ⟨⟨rfl, by decide +kernel⟩, ⟨rfl, by decide +kernel⟩, ⟨rfl, by decide +kernel⟩, ⟨rfl, by decide +kernel⟩⟩

theorem witness_BarrierForms_late : ({ member with late := true } : State).barOk .atomic (member.ownBarVa 1023) ⟨0x20F8, false, false⟩ .mem :=
  ⟨rfl, by decide +kernel⟩

/-- LaunchForms: the first and the last record of the package (s0, s4 = die 3, record 4,095), and a completion word that reads 0. -/
def launcher : State := box fun k => { wide k with regs := { (wide k).regs with s := (wide k).regs.s.set 4 0x3FFF } }

theorem witness_LaunchForms :
    ([ControlOp.lpatch 0 1 0, .lpatch 4 1 7, .larm 1 0, .larm 1 4, .lwait 1].all fun o => launcher.ready ⟨guard, .c o⟩) = true ∧
    launcher.recOperand (launcher.sreg 0) = some (0, 0) ∧ launcher.recOperand (launcher.sreg 4) = some (3, 4095) ∧
    launcher.recOpen 0 0 (launcher.who 0 0).asn = true ∧ launcher.recOpen 3 4095 (launcher.who 0 0).asn = true ∧ launcher.late = false ∧
    launcher.dieRoute 0 0 = true ∧ launcher.dieRoute 0 3 = true ∧ (launcher.atHome 0 0 64 8).2.relOwed 0 0 = false ∧
    launcher.here.aheadOf (rangeOf 64 8) = false ∧ (launcher.atHome 0 0 64 8).1 = 0 ∧
    (({ launcher with mem := [(64, 1)] } : State).atHome 0 0 64 8).1 ≠ 0 := by decide +kernel

/-- No route to die 3: its links to the other dies and to the Hub are down. -/
theorem witness_LaunchForms_lost :
    let s := launcher.modHub fun h => { h with linksDown := [.dies 0 3, .dies 1 3, .dies 2 3, .hub 3] }
    s.dieRoute 0 3 = false ∧ s.recOperand (s.sreg 4) = some (3, 4095) ∧ s.ready ⟨guard, .c (.lpatch 4 1 7)⟩ = true ∧
    s.ready ⟨guard, .c (.larm 1 4)⟩ = true := by decide +kernel

theorem witness_LaunchForms_word : launcher.homeOk (launcher.areg 1) at64 .mem := ⟨rfl, by decide, by decide +kernel⟩

theorem witness_LaunchForms_waits : (({ launcher with mem := [(64, 1)] } : State).atHome 0 0 64 8).2 = { launcher with mem := [(64, 1)] } := rfl

def elementwise : List VectorOp :=
  [.vadd 1 2 3 .i8, .vsub 1 2 3 .u16, .vmul 1 2 3 .bf16, .vmulh 1 2 3 .i32, .vadds 1 2 3 .i16, .vsubs 1 2 3 .u8, .vmin 1 2 3 .f32, .vmax 1 2 3 (.nf 0),
   .vabs 1 2 .bf16, .vneg 1 2 .i16, .vand 1 2 3 .i32, .vor 1 2 3 .u32, .vxor 1 2 3 .i8, .vnot 1 2 .i16, .vshl 1 2 3 .i32, .vshr 1 2 3 .u8,
   .vsra 1 2 3 .i16, .vavg 1 2 3 .u8, .vabsd 1 2 3 .i8, .vclz 1 2 .i32, .vpopc 1 2 .u16, .vmov 1 2 .e5m3, .vperm 1 2 3 .i8, .vzip 1 2 3 .i16,
   .vunzip 1 2 3 .i32, .vseedx 1 2 .f32, .vfma 1 2 3 .bf16 4 .rs, .vfms 1 2 3 .f32 4 .rne, .vfnma 1 2 3 .bf16 4 .rtz, .vfnms 1 2 3 .bf16 4 .rne,
   .vsel 1 2 3 .i8 1, .vaddr 1 2 3 .bf16 .rs, .vmulr 1 2 3 .f32 .rtz, .vaddi 1 2 .i8 1, .vmuli 1 2 .f32 1, .vandi 1 2 .i16 1, .vori 1 2 .i16 1,
   .vshli 1 2 .i32 31, .vshri 1 2 .i8 7, .vsrai 1 2 .i16 15, .vbcst 1 .bf16 1, .vexp 1 2 .bf16, .vexp2 1 2 .bf16, .vlog 1 2 .bf16, .vlog2 1 2 .bf16,
   .vrcp 1 2 .bf16, .vrsq 1 2 .bf16, .vsqrt 1 2 .bf16, .vtanh 1 2 .bf16, .vsigm 1 2 .bf16, .vsilu 1 2 .bf16, .vgelu 1 2 .bf16, .vsin 1 2 .bf16,
   .vcos 1 2 .bf16, .verf 1 2 .bf16, .vwiden 1 2 .bf16, .vnarrow 1 2 3 .i16, .vpack 1 2 3 .u8, .vunpack 1 2 .i8, .vsumw 1 2 3 .i16, .vdot2 1 2 3 .bf16,
   .vscale 1 2 3 .f32, .vround 1 2 .bf16, .vfloor 1 2 .f32, .vslide 1 2 3 .i8, .vrev 1 2 .i32]

theorem witness_VectorElements : (elementwise.all fun o => (vectorRule (base.envFor ⟨guard, .v true o⟩) o).isSome && base.ready ⟨guard, .v true o⟩ &&
    base.ready ⟨guard, .v false o⟩) = true := by decide +kernel

theorem witness_VectorPredicates : ([VectorOp.vcmpeq 1 2 3 .i8, .vcmpne 1 2 3 .bf16, .vcmplt 1 2 3 .f32, .vcmple 1 2 3 .u8, .vcmpgt 1 2 3 .i32,
    .vcmpge 1 2 3 .i16, .vcmpun 1 2 3 .f32, .vclass 1 2 3 .bf16, .vpand 1 2 3, .vpor 1 2 3, .vpxor 1 2 3, .vpandn 1 2 3].all fun o =>
    (predicateRule (base.envFor ⟨guard, .v false o⟩) o).isSome && base.ready ⟨guard, .v false o⟩) = true ∧
    (predicateRule (base.envFor ⟨guard, .v false (.vcmpeq 0 2 3 .i8)⟩) (.vcmpeq 0 2 3 .i8)).map (·.1) = some 0 ∧
    base.ready ⟨guard, .v false (.vcmpeq 0 2 3 .i8)⟩ = true := by decide +kernel

theorem witness_VectorReductions : ([VectorOp.vrsum 1 2 .i8, .vrsum 1 2 .bf16, .vrmax 1 2 .u16, .vrmin 1 2 .f32].all fun o =>
    base.ready ⟨guard, .v false o⟩) = true ∧ ([Ty.i8, .bf16, .u16, .f32].all fun t => (base.here.ty t).isSome) = true := by decide +kernel

theorem witness_VectorConversions : ([VectorOp.vmaxexp 2 .f32, .vseedc 1 2 3 .i8, .vcvt 1 2 .f32 .i8 0 .rne 0, .vcvt 1 2 .i8 .f32 1 .rs 3,
    .vcvt 1 2 .f32 .i8 0 .rtz 3, .vtwr 1 3 15 .i8 .f32 .rne, .vtrd 1 3 15 .bf16 .bf16 .rs].all fun o =>
    base.ready ⟨guard, .v false o⟩ && base.ready ⟨guard, .v true o⟩) = true ∧ base.here.ty .f32 = some (.flt .fp32 4) ∧
    ([Ty.i8, .f32, .bf16, .i16].all fun t => (base.here.ty t).isSome) = true := by decide +kernel

/-- A guard that enables the first 32-bit element only, so that the accesses are short. -/
def narrow : State := box fun k => { wide k with regs := { (wide k).regs with p := (wide k).regs.p.set 1 0xF } }

def slotP1 (o : VectorOp) : Slot := ⟨⟨false, 1⟩, .v false o⟩

/-- The cells of the first four lanes from address 64. -/
def fourLanes : List (Nat × Nat) := [(0, 64), (1, 65), (2, 66), (3, 67)]

theorem witness_VectorMemory : ([VectorOp.vld 1 1 true true 64, .vst 1 1 true false 0, .vldb 1 1 false false 0, .vldnt 1 1 false true 1,
    .vstnt 1 1 false false 0].all fun o => (vectorMem o).isSome && narrow.ready (slotP1 o) &&
    narrow.clear (slotP1 o) true true true [64, 65, 66, 67] && narrow.clear (slotP1 o) false true true [64, 65, 66, 67]) = true := by decide +kernel

set_option maxRecDepth 100000 in
theorem witness_VectorMemory_scratchpad : let e := narrow.envFor (slotP1 (.vld 1 1 true true 64))
    e.vmemCheck narrow.blank true false 64 (vectorLanes e (.vld 1 1 true true 64)) = (.ok (fourLanes, false), narrow.blank) := rfl

set_option maxRecDepth 100000 in
theorem witness_VectorMemory_global : let e := narrow.envFor (slotP1 (.vst 1 1 false false 0))
    e.vmemCheck narrow.blank false true 64 (vectorLanes e (.vst 1 1 false false 0)) = (.ok (fourLanes, false), narrow.blank) := rfl

theorem witness_VectorGathers : ([VectorOp.vgath 1 1 true 2 .e32, .vgath 1 1 false 2 .e8, .vscat 1 1 false 2 .e16, .vscata 1 1 true 2 .e32].all fun o =>
    (gatherForm o).isSome && narrow.ready (slotP1 o) && narrow.clear (slotP1 o) false true true [64, 65, 66, 67] &&
      narrow.clear (slotP1 o) true true true [64, 65, 66, 67]) = true := by decide +kernel

set_option maxRecDepth 100000 in
theorem witness_VectorGathers_places : let o := VectorOp.vgath 1 1 false 2 .e32
    let e := narrow.envFor (slotP1 o)
    e.vgatCheck 4 false .read (e.vgatEa 1 2 4) (e.lanesOn 32) narrow.blank = (.ok ([(0, 64)], false), narrow.blank) := rfl

/-- TableBuild: the first and last row of a tile of one group: row 0, one group, FIRST and LAST, in a ring of 256-byte slots. -/
def builder : State := box fun k =>
  { some64 k with rings := k.rings.set 1 ⟨true, 1, BitVec.ofNat 64 (8 * 2 ^ 32 + 2 ^ 24 + 0x100), 0, 0, 0, 0, none, [], []⟩
                  regs := { (some64 k).regs with v := (some64 k).regs.v.set 3 (BitVec.ofNat 2048 (2 ^ 16 + 3 * 2 ^ 32)) } }

theorem witness_TableBuild : builder.ready ⟨guard, .v false (.vtbld 1 2 3)⟩ = true ∧
    (let e := builder.envFor ⟨guard, .v false (.vtbld 1 2 3)⟩
     vtbldCheck builder.here builder.here.rings[(1 : Fin 16)] (mergeLanes 8 256 0 (e.src 2 8) (laneMask 8 (e.on 8)))
      (elemAt (builder.here.readV 3 8) 16 0) (elemAt (builder.here.readV 3 8) 16 1) ((builder.here.readV 3 8).testBit 32)) = none ∧
    (builder.here.readV 3 8).testBit 32 = true ∧
    ((builder.here.rings[(1 : Fin 16)]).a - (builder.here.rings[(1 : Fin 16)]).h).toNat < (builder.here.rings[(1 : Fin 16)]).nslot ∧
    (let r := builder.here.rings[(1 : Fin 16)]
     builder.clear ⟨guard, .v false (.vtbld 1 2 3)⟩ true false true (vtbldBytes (r.slotAddr r.a) 0 (tableRowBytes builder.here.regs.cbCfg.toNat 1)
      true)) = true := by
  decide +kernel

/-- A grant of one row, 32 columns and one block in sh1. -/
def gridSh : W64 := 0x40000000 + BitVec.ofNat 64 (32 * 2 ^ 20 + 2 ^ 13 + 2 ^ 5)

/-- The fields of a tile header that the witnesses set (06_lut_engine.md Table 6-5): kind, rows, columns, length, block, flags, payload. -/
def tile (kind rows cols klen blk fl scaleOff : Nat) : Nat :=
  kind + 2 ^ 32 * rows + 2 ^ 48 * cols + 2 ^ 64 * klen + 2 ^ 80 * blk + 2 ^ 112 * fl + 2 ^ 160 * scaleOff + 2 ^ 192 * 48

/-- Four rings with a table tile, a weight tile and two index lists at their heads; MODE 0 mask block in ring 5. -/
def lookups (k : Core) : Core :=
  let g (n : Nat) : Ring := ⟨true, 1, BitVec.ofNat 64 (8 * 2 ^ 32 + 2 ^ 24 + 0x100 * n), 0, 0, 1, 1, none, [], []⟩
  { some64 k with
    rings := (((((k.rings.set 1 (g 2)).set 2 (g 4)).set 3 (g 6)).set 4 (g 8)).set 5 (g 10))
    spad := writeLE (writeLE (writeLE (writeLE (writeLE [] 0x200 48 (tile 2 1 1 0 5 1 32)) 0x400 48 (tile 3 0 1 4 5 1 44)) 0x600 48 (tile 1 1 1 0 0 0 0))
      0x800 48 (tile 1 1 1 0 0 0 0)) 0xA00 48 (tile 8 0 0 0 0 0 0)
    regs := { (some64 k).regs with sh := (some64 k).regs.sh.set 1 gridSh } }

def looker : State := box lookups

def lookupForms : List MatrixOp :=
  [.mlut 1 2 0 0 1 false, .mlut 1 2 63 15 1 true, .mlutg 1 2 0 0 1 false 3 4, .mluts 1 2 0 0 1 false, .mlutsg 1 2 0 0 1 false 3 4, .mlutk 1 2 0 0 1 false,
   .mlutgk 1 2 0 0 1 false 3 4]

theorem witness_MatrixForms :
    (lookupForms.all fun o => (match lutForm o with | some f => looker.lookupOk f | none => false) && looker.ready ⟨guard, .m o⟩) = true ∧
    ([MatrixOp.maclr 63 15 1, .mmask 5, .macwr 1 63 14, .mbias 1 0 0, .macrd 1 63 14, .mreset].all fun o => looker.ready ⟨guard, .m o⟩) = true ∧
    looker.here.eng.mq = [] ∧ gridBad (looker.here.regs.sh[(1 : Fin 4)]).toNat 63 15 = false ∧ (looker.here.rings[(5 : Fin 16)]).init = true := by
  decide +kernel

/-- CopyForms: the blocks at 64 and at the last offset, 0x7FFC0, all zero; YLDV of the last 256 bytes. -/
def copier : State := box fun k => { some64 k with regs := { (some64 k).regs with a := ((some64 k).regs.a.set 3 0x7FFC0).set 4 0x7FF00 } }

theorem witness_CopyForms : ([CopyOp.ycopy 1 true true .s, .ypush 3 false false .c, .yacc 3 false false .c, .yaccp 3 false false .c, .ymx4 3 false false .c,
    .ysadd 3 false false .c, .yatom 3 false false .c, .ypref 3 false false .c, .yfill 3 false false .c, .yrem 3 false false .c, .ygath 3 false false .c,
    .yscat 3 false false .c, .yline 3 false false .c].all fun o => match copyForm o with
      | some f => copier.ready ⟨guard, .y true o⟩ && (f.kind == .push || copier.copyOk true f)
      | none => false) = true ∧
    copier.ready ⟨guard, .y false .ycancel⟩ = true ∧ (copier.here.eng.yq[copyIdx false]).length < 32 ∧
    copier.ready ⟨guard, .y false (.yldv 4 true 1)⟩ = true ∧ (copier.areg 4).toNat + 256 ≤ 0x80000 ∧ (copier.areg 4).toNat % 4 = 0 ∧
    copier.here.eng.locks = [] := by decide +kernel

/-! Witnesses for the statements about the other agents. -/

/-- ADD in slot 1 beside AADD in slot 2, from address 0. -/
def addSlot : Slot := ⟨guard, .s (.add 4 1 2)⟩
def aaddSlot : Slot := ⟨guard, .a (.aadd 3 1 1)⟩

def pairBox : State :=
  { base with mem := writeLE (writeLE (writeLE [] 0 4 0xB0000006) 4 4 addSlot.encode.2.1) 8 4 aaddSlot.encode.2.1 }

theorem witness_BundleIssues : pairBox.awake = true ∧ pairBox.calm = true ∧ pairBox.here.noneOwed = true ∧ pairBox.takes addSlot = true ∧
    pairBox.takes aaddSlot = true := by decide +kernel

theorem witness_BundleIssues_words : fetchHead pairBox.cur.1 pairBox.cur.2 pairBox = (.ok 0 0 12 0xB0000006, pairBox) ∧
    pairBox.codeHeld pairBox.cur.1 pairBox.cur.2 = none ∧
    pairBox.fetchBundle pairBox.cur.1 pairBox.cur.2 0xB0000006 = (.ok [0xB0000006, addSlot.encode.2.1, aaddSlot.encode.2.1], pairBox) ∧
    bundleSlots .g3 [0xB0000006, addSlot.encode.2.1, aaddSlot.encode.2.1] = [(1, addSlot.encode.2.1, none), (2, aaddSlot.encode.2.1, none)] ∧
    decodeFor (pairBox.here.profile 0) 1 addSlot.encode.2.1 none = .ok addSlot ∧
    decodeFor (pairBox.here.profile 0) 2 aaddSlot.encode.2.1 none = .ok aaddSlot := ⟨rfl, rfl, rfl, rfl, rfl, rfl⟩

def cached : State := box fun k => { k with code := ⟨[⟨0, .g3, 0, [0xB0000002, 5]⟩, ⟨0, .g2, 0, [7]⟩], [⟨0, 0, 0⟩]⟩ }

theorem witness_CodeOldOrNew : cached.codeHeld 0 0 = some [0xB0000002, 5] ∧ cached.codeHeld 0 64 = none ∧
    (State.invalidateCore coreReg cached 0 ⟨0, 0, false⟩ 0).map (fun u => ((u.core 0 0).code, (u.core 0 0).tlb)) = some (.empty, []) ∧
    ((State.invalidateCore coreReg cached 0 ⟨0x8000000000000000, 0x1000, false⟩ 0).map fun u => (u.core 0 0).code) = some .empty ∧
    ((State.invalidateCore coreReg cached 0 ⟨0x8000000000001000, 0x2000, false⟩ 0).map fun u => (u.core 0 0).code.ops.length) = some 2 := by
  decide +kernel

/-- A write to `d` that lands at cycle `n`, sent by slot `x`. -/
def sent (d : Dst) (n x : Nat) : Pend := ⟨n, x, 0, 0, d, 5, 2 ^ 256 - 1, none, [], false, none⟩

def landing (l : List Pend) : State := box fun k => { some64 k with pend := l }

/-- WritesLand: none due (one lands at the next cycle), one due for each kind of register, two due for s4 from slots 1 and 2. -/
theorem witness_WritesLand :
    (landing [sent (.s 4) 1 1]).power = true ∧ (landing []).here.dbg.frozen = false ∧ (landing []).here.held = [] ∧ (landing []).here.stay = [] ∧
    (∀ y ∈ [sent (.s 4) 1 1], (landing []).here.now < y.land) ∧
    ([Dst.s 4, .b 1, .v 1].all fun d => decide ((landing [sent d 0 1]).here.pend = [sent d 0 1]) && decide ((sent d 0 1).land ≤ 0)) = true ∧
    (sent (.s 4) 0 1).slot < (sent (.s 4) 0 2).slot ∧ (landing [sent (.s 4) 0 2, sent (.s 4) 0 1]).here.handler = false := by decide +kernel

/-- WritesLand: row 1 of two groups of a row of VTBLD, ternary with G = 2, first and last of its tile, whose entry 0 is assigned. -/
def rowLanding : State := box fun k =>
  { some64 k with rings := k.rings.set 2 { k.rings[(2 : Fin 16)] with init := true, gen := 7, a := 1 }
                  pend := [⟨0, 3, 0, 0, .vtbld 2, 0x0705FF03, 0, none, [], false,
                    some ⟨0xA0, 0x100FF, 0x1234, 0x55, 1 + 2 ^ 16 * 2 + 2 ^ 32 * 3, 0, 7⟩⟩] }

theorem witness_WritesLand_row : rowLanding.here.held = [] ∧ rowLanding.here.stay = [] ∧
    (let g := rowLanding.here.rings[(2 : Fin 16)]
     g.gen.toNat = 7 ∧ g.init = true ∧ ((0 : BitVec 32) - g.h).toNat < (g.a - g.h).toNat ∧ g.done = [] ∧ g.t = 0) ∧
    bits (1 + 2 ^ 16 * 2 + 2 ^ 32 * 3) 15 0 < 16 ∧ swf rowLanding.here.spad = true := by decide +kernel

/-- The pipeline of core 0 holding one entry. -/
def pipe (m : MemKind) : State := box fun k => { some64 k with memq := [⟨0, 2, 0, 0, false, m⟩] }

theorem witness_PipelineSteps : ([MemKind.load (.s 4) .zext [(0, 64)] false false none, .store [(64, 1)] false false, .flushLine 64 true, .flush .s true,
    .release [(64, 1)] .s [], .arrive .arrive 0x100 .c [], .arrive (.init 2) 0x100 .c [], .arrive .remAddr 0x100 .p [], .arrive (.remSet 31) 0 .p [],
    .larm (.s 4) 0 [], .lpatch 16383 7 1].all fun m =>
      let s := pipe m
      s.power && !s.here.dbg.frozen && s.here.memq[0]? == some ⟨0, 2, 0, 0, false, m⟩ && s.mayPerform 0 0 0 && s.cacheable 64 && !s.isFabric 0x100 &&
        (s.releaseLines 0 0 .p).dieRoute 0 0 && s.dieRoute 0 3) =
    true := by decide +kernel

/-- ResultsArrive: a byte load of a core without lines, and a BTOK of the matrix engine with nothing queued. -/
def btokBox : State := box fun k => { some64 k with eng := { k.eng with btoks := [⟨1, 0x100, .m, 0, 0, 0, false⟩] } }

theorem witness_ResultsArrive :
    (let s := pipe (.load (.s 4) .zext [(0, 64)] false false none)
     s.here.pend = [] ∧ s.here.srb = [] ∧ s.here.tap.saved = [] ∧ s.cacheable 64 = true ∧ s.here.l1 = [] ∧ (s.slice 0 (clusterOf 0)).lines = [] ∧ s.here.handler = false) ∧
    ((pipe (.load (.s 4) .zext [(0, 64)] false false none)).die 0).bridge = [] ∧ btokBox.here.held = [] ∧ btokBox.here.tap.saved = [] ∧ btokBox.here.memq = [] ∧
    btokBox.here.eng.btoks = [⟨1, 0x100, .m, 0, 0, 0, false⟩] ∧ btokBox.here.eng.mq = [] := by decide +kernel

/-- ArrivalStep on the last of two arrivals: EXP 2, ARR 1, at 0x100. -/
def arriving : State := { pipe (.arrive .arrive 0x100 .c []) with mem := writeLE [] 0x100 8 (barPack 2 1 false false) }

theorem witness_ArrivalStep : arriving.power = true ∧ arriving.here.dbg.frozen = false ∧ arriving.commandsDone 0 0 [] = true ∧
    arriving.here.tableAhead ⟨0, 2, 0, 0, false, .arrive .arrive 0x100 .c []⟩ = false ∧
    arriving.cacheable 0x100 = true ∧ arriving.hub.fabCfg.getLsbD 4 = false ∧ arriving.poisoned 0x100 = false ∧ 0x100 % 8 = 0 ∧
    (∀ i, i < 8 → arriving.hasMem (0x100 + i) = true) ∧ arriving.here.l1 = [] ∧ Memory.wf arriving.mem = true ∧
    (arriving.die 0).bridge = [] ∧ readLE arriving.mem 0x100 8 = barPack 2 1 false false := by decide +kernel

theorem witness_ArrivalStep_lines : ∀ e j, (arriving.slice e j).lines = [] := by
  have h : ∀ (e : Fin 4) (j : Fin 8), (arriving.slice e j.val).lines = [] := by decide +kernel
  intro e j
  by_cases hj : j < 8
  · exact h e ⟨j, hj⟩
  · unfold State.slice
    rw [Vector.getD, Array.getD, dif_neg (by rw [Vector.size_toArray]; omega)]
    rfl

/-- A matrix command of core 0, with the generation of its rings. -/
def cmd (o : MatrixOp) (gens : List (Fin 16 × BitVec 12)) (st : MState) (tiles : List Tile) : MatCmd :=
  ⟨0, guard, o, 0, 0, 0, false, 0x0AC0, 0, 1, 32, 1, gens, st, 0, 0, tiles, 0, []⟩

def matBox (m : MatCmd) : State := box fun k => { lookups k with eng := { k.eng with mq := [m] } }

/-- MatrixEngine: a lookup of a ring initialised anew; one whose tiles pass; one that takes its weights from an index list; a started one; the
commands on the accumulator; MMASK waiting and started. -/
theorem witness_MatrixEngine :
    (let s := matBox (cmd (.mlut 1 2 0 0 1 false) [(1, 1), (2, 1)] .waiting [])
     s.power = true ∧ s.here.dbg.frozen = false ∧ s.here.dbg.stepping = false ∧ s.here.waitc = none ∧ (s.die 0).holds 0 = false ∧
      s.here.csr.statEn = false ∧
      s.here.matStopped (cmd (.mlut 1 2 0 0 1 false) [(1, 0), (2, 1)] .waiting []) = true ∧
      (cmd (.mlut 1 2 0 0 1 false) [] .waiting []).isLookup = true ∧
      (([cmd (.mlut 1 2 0 0 1 false) [(1, 1), (2, 1)] .waiting [], cmd (.mlut 1 3 0 0 1 false) [(1, 1), (3, 1)] .waiting []].all fun m =>
        !s.here.matStopped m && s.here.matReady m && (lutForm m.op).isSome) = true) ∧
      (let m := cmd (.mlut 1 2 0 0 1 false) [(1, 1), (2, 1)] .waiting []
       (lutForm m.op).map (fun f => s.here.lutCheck { m with tiles := f.rings.map s.here.headTile, mask := s.here.eng.mask } f) = some none) ∧
      (let m := cmd (.mlut 1 3 0 0 1 false) [(1, 1), (3, 1)] .waiting []
       (lutForm m.op).map (fun f => s.here.lutCheck { m with tiles := f.rings.map s.here.headTile, mask := s.here.eng.mask } f) =
        some (some (.engine, 0x01)))) := by decide +kernel

theorem witness_MatrixEngine_started :
    let s := matBox (cmd (.mlut 1 2 0 0 1 false) [(1, 1), (2, 1)] .waiting [])
    let m := cmd (.mlut 1 2 0 0 1 false) [(1, 1), (2, 1)] .started ([1, 2].map s.here.headTile)
    s.here.matStopped m = false ∧ m.mask = 0 ∧ swf s.here.eng.acc = true ∧ 32 * 0 + Nat.min (tileField (m.tileOf 2) 6 2) m.gn ≤ 512 ∧
    (∀ t ∈ m.tiles, t.fixed = 0 ∧ t.val = rangeValue s.here.spad t.addr (s.here.rings[t.ring]).slotBytes) ∧
    ([MatrixOp.maclr 63 15 1, .macwr 1 63 14, .mbias 1 0 0].all fun o => s.here.matReady (cmd o [] .waiting [])) = true ∧
    s.here.matStopped (cmd (.mmask 5) [(5, 1)] .waiting []) = false ∧ s.here.matReady (cmd (.mmask 5) [(5, 1)] .waiting []) = true ∧
    maskCheck (s.here.headTile 5).val (s.here.rings[(s.here.headTile 5).ring]).slotBytes = none := by decide +kernel

/-- A block: one row of one byte from scratchpad offset 0 to 0x1000, completion record at 0x2000 with value 7 (08_core_memory.md Table 8-4). -/
def block (rows flags dst cpl : Nat) : Nat :=
  2 ^ 64 * dst + 2 ^ 256 * rows + 2 ^ 272 * 1 + 2 ^ 384 * flags + 2 ^ 448 * cpl + 2 ^ 480 * 7

def copyCmd (o : CopyOp) (b : Nat) (st : YState) (r : Option (Fin 16 × BitVec 12 × BitVec 32)) : CopyCmd :=
  ⟨0, guard, o, b, 0, 0, 0, false, r, st, 0, none, 0, false, false, 0, [], none, [], [], none⟩

def copyBox (y : CopyCmd) : State := box fun k =>
  { lookups k with eng := { k.eng with yq := k.eng.yq.set 0 [y] }
                   rings := (lookups k).rings.set 6 { ring false 0 0 0 1 with marks := [0] } }

def ycopy : CopyOp := .ycopy 1 false false .c
def plain : Nat := block 1 0x50 0x1000 (2 ^ 31 + 0x2000)

/-- CopyEngine: commands at the head that are halted, cancelled, malformed, running, ended, and a YPUSH of one marked entry. -/
theorem witness_CopyEngine :
    (let s := copyBox (copyCmd ycopy plain .running none)
     s.power = true ∧ s.here.dbg.frozen = false ∧ s.here.dbg.stepping = false ∧ s.here.waitc = none ∧ s.here.acquireBefore 0 = false ∧
      (copyForm .ycancel).isNone = true ∧ (s.die 0).holds 0 = false ∧ s.here.eng.yq[copyIdx false] = [copyCmd ycopy plain .running none] ∧
      s.here.fenced (copyEng false) 0 = false ∧ s.here.matsPending (copyCmd ycopy plain .waiting none) = false ∧
      s.here.eng.spill[copyIdx false] = [] ∧ s.here.slotBusy (copyCmd ycopy plain .running none) = false ∧
      s.here.recordLocked false (copyCmd ycopy plain (.ended 0) none) = false ∧ blkCplEn plain = true ∧ swf s.here.spad = true ∧
      s.hub.fabWrites = [] ∧
      (copyForm ycopy).map (fun f => planOf f plain) = some (some ⟨1, true, some (0x1000, 0x1000)⟩) ∧
      (copyForm ycopy).map (fun f => planOf f (2 ^ 408)) = some none ∧
      (match ((Yc.mk 0 0 0 (copyCmd ycopy plain .running none)).chunk .copy).run.run s with | (.ok _, _) => true | _ => false) = true) ∧
    (let s := copyBox (copyCmd (.ypush 1 false false .c) (2 ^ 256 + 2 ^ 384 * 0xC0 + 2 ^ 416 * 0x16) .waiting (some (6, 1, 0)))
     (copyForm (.ypush 1 false false .c)).isSome = true ∧ s.here.fenced (copyEng false) 0 = false ∧ (s.here.rings[(6 : Fin 16)]).gen = 1 ∧
      ((s.here.rings[(6 : Fin 16)]).pushMarked (blkRows (2 ^ 256 + 2 ^ 384 * 0xC0 + 2 ^ 416 * 0x16))).isSome = true ∧
      ((copyForm (.ypush 1 false false .c)).map fun f => (planOf f (2 ^ 256 + 2 ^ 384 * 0xC0 + 2 ^ 416 * 0x16)).isSome) = some true) := by
  decide +kernel

/-- A thread whose level-1 table at 0x1000 maps its first 512 GB onto themselves by a table at 0x2000 with one large leaf
(12_die.md R327, Table 12-5). -/
def walker : State :=
  { box (fun k => { k with thr := { k.thr with root := 0x1000 } }) with mem := writeLE (writeLE [] 0x1000 8 0x2001) 0x2000 8 0x11F }

/-- CoreHousekeeping: a dirty line in L1 and in a slice, a load that waits for one, a page to walk. -/
def lined : State :=
  (box fun k => { some64 k with
    l1 := [⟨0x40, 0, 3, 0xFF, .c, false, false⟩], memq := [⟨0, 2, 0, 0, false, .load (.s 4) .zext [(0, 0x40)] false false none⟩] }).setSlice
    0 0 { L2Slice.empty with lines := [⟨0x40, 0xAB, 1, [0], [], false⟩] }

theorem witness_CoreHousekeeping_lines : lined.power = true ∧ (lined.here.l1Find 0x40).isSome = true ∧ lineOf 0x7F = 0x40 ∧
    ((lined.slice 0 0).find 0x40).map (·.poison) = some false ∧ lined.ownerDie 0x40 = (0 : Fin 4) ∧ (lined.die 0).nextMiss = none ∧
    Memory.wf lined.mem = true ∧ lined.here.dbg.frozen = false ∧
    lined.cacheable 0x40 = true ∧ (lined.here.memq.any fun m => m.kind.wantsLine 0x40) = true ∧ lined.here.run ≠ .idle ∧
    (lined.who 0 0).on = true ∧ canonical (0xFFFF800000000000 : W64) = true := by decide +kernel

/-- A miss of core 0 whose turn it is. -/
theorem witness_CoreHousekeeping_miss : let s := page.modDie 0 fun x => { x with misses := [⟨0, 0, 0x1, false⟩] }
    (s.die 0).nextMiss = some ⟨0, 0, 0x1, false⟩ ∧ (Miss.mk 0 0 0x1 false).merges ((s.who 0 0).miss .read 0x1000) = true := by decide +kernel

theorem witness_CoreHousekeeping_walk : ((walker.walkNow (walker.who 0 0) .read 0).1.toOption).isSome = true := by decide +kernel

/-- A COPY_ERROR of engine Y0 that is pending. -/
def failing (r : Run) (tvec : W64) : State := box fun k =>
  { some64 k with run := r, csr := { k.csr with tvec := tvec, tdeleg := 0 }, eng := { k.eng with errs := k.eng.errs.set 0 [⟨0x03, 0, 0, 0⟩] } }

theorem witness_CoreHousekeeping_causes :
    (let s := failing .running 0x1000
     s.here.run = .running ∧ s.here.owed.isNone = true ∧ s.here.dbg.stepping = false ∧ s.here.handler = false ∧
      isTaproot 0 = false ∧ (s.die 0).holds 0 = false ∧
      (match s.here.takeAsync with
        | some (t, k) => t.cause != .preempt && k.handlerTakes t && k.memq.isEmpty && !t.toTaproot
        | none => false) = true ∧ s.settleNext 0 0 = (s, some false)) ∧
    (let s := failing .halted 0
     s.here.run = .halted ∧ ({ s.here with preempt := false } : Core).takeAsync.isSome = true ∧ s.here.memq = [] ∧ s.here.stats = [] ∧
      s.here.l1 = [] ∧ ((s.slice 0 (clusterOf 0)).lines.filter fun x => x.cores.contains 0) = []) := by decide +kernel

def posting : State := box fun k =>
  { wide k with stats := [⟨1, 1, 0, 1, 0, 0, 0, 0⟩], csr := { k.csr with statEn := true, statSize := 16, statBase := 0x400 } }

theorem witness_CoreHousekeeping_statistics : posting.here.statStuck = false ∧ posting.here.memq = [] ∧ posting.here.csr.statEn = true ∧
    posting.here.csr.statLost = 0 ∧ (posting.here.csr.statTail + 1 - posting.here.csr.statHead).toNat ≤ posting.here.csr.statSize.toNat ∧
    canonical (0x400 : W64) = true := by decide +kernel

theorem witness_CoreHousekeeping_buffer : posting.locate (posting.who 0 0) .write
    (posting.here.csr.statBase + BitVec.ofNat 64 (32 * (posting.here.csr.statTail.toNat % posting.here.csr.statSize.toNat))) 32 =
    (.ok (⟨0x400, false, false⟩, .mem), posting) := rfl

theorem witness_CoreHousekeeping_done : let s := box fun k => { some64 k with run := .halted }
    s.haltedDone 0 0 = true ∧ s.here.memq = [] ∧ s.here.pend = [] ∧ s.here.stats = [] ∧ s.here.eng.btoks = [] ∧ s.here.l1 = [] := by decide +kernel

/-- The device with a different die 0. -/
def die0 (f : Die → Die) : State := State.reset.modDie 0 f

/-- DieServices: invalidation commands of each kind, of every reserved and boundary value of their ranges, and a performed one. -/
theorem witness_DieServices_invalidation :
    ([(0, 0), (2 ^ 62, 0), (2 ^ 63, 0x1000), (2 ^ 63 + 2 ^ 62, 0x1000)].all fun c =>
      let s := die0 fun x => { x with tlbCmds := [⟨BitVec.ofNat 64 c.1, BitVec.ofNat 64 c.2, false⟩] }
      s.power && s.hasDie 0 && (s.die 0).tlbCmds.all (fun c => !tlbIdle c) &&
        ((List.finRange 68).foldl (fun r c' => r.bind fun s =>
          s.invalidateCore coreReg 0 ⟨BitVec.ofNat 64 c.1, BitVec.ofNat 64 c.2, false⟩ c') (some s)).isSome) = true ∧
    ([TlbCmd.mk 0 0 false, ⟨BitVec.ofNat 64 (2 ^ 62), 0, false⟩, ⟨BitVec.ofNat 64 (2 ^ 63), 0x1000, false⟩,
      ⟨BitVec.ofNat 64 (2 ^ 63 + 2 ^ 62), 0x1000, false⟩].map tlbKind) = [0, 1, 2, 3] := by decide +kernel

/-- DieServices: a pager request of an address space that no core runs, and one that core 0 waits for. -/
def waiting : State :=
  (box fun k => { some64 k with thr := { k.thr with asn := 9 }, eng := { k.eng with
    yq := #v[[{ copyCmd ycopy plain .running none with page := some 5 }], []] } }).modDie 0 fun x =>
      { x with pager := [⟨1, 5, 9, 0, true⟩, ⟨2, 5, 8, 0, true⟩] }

theorem witness_DieServices_pager : (waiting.die 0).pager.find? (fun r => r.tag == 1) = some ⟨1, 5, 9, 0, true⟩ ∧
    (waiting.die 0).pager.find? (fun r => r.tag == 2) = some ⟨2, 5, 8, 0, true⟩ ∧ waiting.coresOf 0 9 = [0] ∧ waiting.coresOf 0 8 = [] ∧
    (waiting.core 0 0).eng.yq = #v[[{ copyCmd ycopy plain .running none with page := some 5 }], []] ∧ (waiting.core 0 0).eng.spill = #v[[], []] ∧
    waiting.hasDie 0 = true := by
  decide +kernel

/-- DieServices: a slice with a clean line at 0x80 and a dirty one at 0x40, no way of it failed. -/
theorem witness_DieServices_slice : (let z := lined.slice 0 0
    ((z.find 0x40).any fun l => decide (l.dirty ≠ 0)) && z.failed.isEmpty) = true ∧
    (let s := lined.setSlice 0 0 { L2Slice.empty with lines := [⟨0x80, 7, 0, [], [], false⟩] }
     ((s.slice 0 0).find (lineOf 0x85)).any fun l => decide (l.dirty = 0)) = true := by decide +kernel

/-- DieServices: registers and limits; the budget reached, the soft limit reached. -/
theorem witness_DieServices_registers :
    (0x4000000000000000 : W64).getLsbD 62 = true ∧ (0x8000000000000000 : W64).getLsbD 62 = false ∧
    (State.reset.die 0).atLock = false ∧ ((die0 fun x => { x with atLock := true }).die 0).atLock = true ∧ (63 : Nat) < 64 ∧
    State.reset.cfg.form ≠ .D ∧ State.reset.hasDie (3 : Fin 4).val = true ∧
    ({ State.reset with cfg := { Cfg.full with form := .D } } : State).hasDie (1 : Fin 4).val = false ∧ (State.reset.die 0).recs = [] ∧
    (let x := (die0 fun x => { x with eused := 102000 }).die 0
     x.budgetOn = true ∧ x.budget ≤ x.eused.toNat ∧ bits x.ebudget.toNat 39 32 * x.budget ≤ 256 * x.eused.toNat) ∧
    (State.reset.die 0).schedOn = false ∧ (State.reset.die 0).passDue = false := by decide +kernel

/-- The tables of die 0 let Taproot core 0 write every register. -/
def opened : State := die0 fun x => { x with atDef := 0xFFFFFFFF }

theorem witness_DieServices_writes :
    (match opened.checkPhys 0 64 true .write 0x300400000108 8, opened.checkPhys 0 64 true .write 0x300000002008 8 with
      | .ok .reg, .ok .reg => true | _, _ => false) = true ∧
    (match State.reset.checkPhys 0 64 true .write 0x100000000000 8 with | .error _ => true | .ok _ => false) = true := by decide +kernel

/-- An armed record 1 whose launch record, as read, allows cluster 0, with the scheduler on. -/
def armed : State :=
  die0 fun x => { x with
    schedCfg := x.schedCfg ||| 1, recs := [{ NurRec.fresh 1 with st := .armed, depMet := true, image := 2 ^ (8 * 0x4A) }] }

theorem witness_DieServices_due : ((die0 fun x => { x with passDue := true }).die 0).passDue = true ∧
    ((die0 fun x => { x with passDue := true }).die 0).schedOn = false := by decide +kernel

theorem witness_DieServices_scheduler : (armed.die 0).schedOn = true ∧ (armed.candidates 0).map (·.idx) = [1] ∧ ((armed.die 0).recd 1).st = .armed ∧
    armed.admitted 0 ((armed.die 0).recd 1) = true ∧
    (armed.chooseCore 0 ((armed.die 0).recd 1) (((List.range 64).filter fun c => armed.suits 0 ((armed.die 0).recd 1) c && !([] : List Nat).contains c).filter
      (armed.freeCore 0))) = some 0 := by decide +kernel

def recState (st : NrState) : State := die0 fun x => { x with recs := [{ NurRec.fresh 1 with st := st }] }

/-- Record 1 TRAPPED while the die still holds the record of its event. -/
theorem witness_DieServices_held : let s := (recState .trapped).modDie 0 fun x => { x with events := [⟨1, 0, 1, 0, 0⟩] }
    ((s.die 0).recd 1).st = .trapped ∧ ((s.die 0).events.any fun e => e.kind == 1 && e.idx == 1) = true ∧
    (((recState .trapped).die 0).events.any fun e => e.kind == 1 && e.idx == 1) = false := by decide +kernel

theorem witness_DieServices_records : ([NrState.trapped, .armed, .parked, .ready].all fun st => (((recState st).die 0).recd 1).st == st) = true ∧
    (let s := box fun k => { k with thr := { k.thr with idx := 1 } }
     let s := s.modDie 0 fun x => { x with recs := [{ NurRec.fresh 1 with st := .running }] }
     ((s.die 0).recd 1).st = .running ∧ s.coreOf 0 1 = some 0 ∧ (s.core 0 0).run = .running) := by decide +kernel

/-! PackageSteps. -/

/-- An LN-7140-M as endpoint (MODESEL 1). -/
def endpoint : State := { State.reset with cfg := { Cfg.full with straps := 1 } }

theorem witness_PackageSteps_host : (0 : Fin 64).val < 16 ∧ (15 : Fin 64).val < 16 ∧ endpoint.cfg.form ≠ .D ∧ endpoint.cfg.straps.getLsbD 0 = true ∧
    endpoint.inBar2 64 0 = false ∧
    ({ endpoint with hub := { endpoint.hub with winBase := 0, winSize := 1 } } : State).inBar2 64 2 = true ∧
    State.reset.cfg.straps.getLsbD 0 = false ∧ (31 : Fin 64).val < 32 ∧ State.reset.inboundRefused 80 true 64 ([1, 2] : List Byte).length = none ∧
    State.reset.inboundReach 64 2 = true := by
  decide +kernel

theorem witness_PackageSteps_start : (1 : W64).getLsbD 0 = true ∧ State.reset.hasDie 3 = true ∧ (State.reset.core 0 64).run = .idle ∧
    State.reset.power = true ∧
    (let s := (boxed 0 64 fun k => { k with tap := { k.tap with ie := true, irqEn := 0x80 } }).modDie 0 fun x => { x with trSoft := 1 }
     (s.core 0 64).run = .running ∧ (s.core 0 64).delay = 0 ∧ (s.core 0 64).tap.ie = true ∧ s.interrupt 0 64 = some 7) := by decide +kernel

/-- The trigger: none pending, one whose time has come. -/
theorem witness_PackageSteps_trigger : State.reset.hub.trigAt = none ∧
    (let s := State.reset.modHub fun h => { h with trigAt := some 100, ptime := 100 }
     s.hub.trigAt = some 100 ∧ s.hub.ptime = 100) := by decide +kernel

/-- Links and ports: a link that is up, a port that is up, a port that is enabled with no lower package in reach. -/
theorem witness_PackageSteps_links : Link.dies 0 1 ∉ State.reset.hub.linksDown ∧
    (let s := State.reset.modHub fun h => { h with fabPort := h.fabPort.set 0 0x3003, fabCfg := 0x10 }
     (s.hub.fabPort[(0 : Fin 8)]).getLsbD 1 = true ∧ (s.hub.fabPort[(0 : Fin 8)]).getLsbD 0 = true ∧ (1 : Fin 4) ≠ 0 ∧ s.pkgId = 0) ∧
    (let s := State.reset.modHub fun h => { h with fabPort := h.fabPort.set 0 0x2013, fabCfg := 0x11, route := h.route.set 0 0x80 }
     s.pkgId = 1 ∧ s.routeTo 0 = true) := by decide +kernel

theorem witness_PackageSteps_memory : State.reset.hasMem (lineOf 0x7F) = true ∧ State.reset.ownerDie (lineOf 0x7F) = (0 : Fin 4) ∧
    (State.reset.die 0).scrub ≠ 0 ∧ (State.reset.die 0).thermHold = false ∧ State.reset.heartDirty (lineOf 0x7F) = false ∧
    ({ State.reset with mem := [(0x41, 1)] } : State).heartDirty (lineOf 0x7F) = true ∧
    (State.reset.modHub fun h => { h with boot := .done }).hub.boot = .done := by decide +kernel

/-- PackageSteps: the image at 0x1000 of three sections, of TYPE 1, of an unknown one without MU, and of the same one with MU or of TYPE 2
with LOAD (14_package.md, example under R395). -/
def image (type flags magic : Nat) : State :=
  { State.reset with mem := ([(0, 4, magic), (4, 2, 1), (8, 4, 64), (12, 2, 3), (14, 2, 1), (16, 4, 160), (48, 8, 512), (64, 2, 1), (66, 2, 6), (72, 8, 448),
    (80, 8, 64), (89, 1, 3), (96, 2, 0x130), (104, 8, 448), (128, 2, type), (130, 2, flags), (136, 8, 448), (164, 1, 3), (176, 8, 1), (184, 8, 1),
    (192, 8, 1), (200, 8, 1), (208, 2, 0xFFFF)] : List (Nat × Nat × Nat)).foldl (fun m x => writeLE m (0x1000 + x.1) x.2.1 x.2.2) [] }

/-- The result of a load: another MAGIC, section 2 unknown with MU, all known with LOAD. -/
theorem witness_PackageSteps_loader : ([image 0x130 1 5, image 0x130 1 0x31494B4C, image 2 2 0x31494B4C].map fun s =>
    ((s.loadImage 0x1000 512).hub.lastLoad).map fun r => (r.status, r.index, r.mapped)) = [some (1, 0, []), some (3, 2, []), some (0, 0, [0, 2])] := by
  decide +kernel

/-! PortAndFabric. -/

/-- A frozen core with a write on its way and a command for its first item. -/
def frozen : State := box fun k => { some64 k with dbg := { k.dbg with frozen := true }, pend := [sent (.s 4) 3 1] }

theorem witness_PortAndFabric_port : State.reset.portOpen = true ∧ isTaproot 0 = false ∧ (State.reset.core 0 0).dbg.frozen = false ∧
    frozen.here.dbg.frozen = true ∧ frozen.here.srb = [] ∧ frozen.here.pend = [sent (.s 4) 3 1] ∧ bits frozen.here.dbg.cmd.toNat 63 16 = 0 := by
  decide +kernel

/-- A record for REINJECT: s4, offset 1 to 8, slot 1. -/
def reinjecting (off : Nat) : State :=
  box fun k => { some64 k with dbg := { k.dbg with frozen := true, recd := 0x0400 + 2 ^ 16 * 4 + 2 ^ 32 * off } }

theorem witness_PortAndFabric_reinject : ([1, 8].all fun n => (pendOf ((reinjecting n).here.dbgErr false) (reinjecting n).here.dbg.recd).isSome &&
    decide ((reinjecting n).here.inFlight < 64)) = true := by decide +kernel

/-- The fabric on, this package 0 with package 1 in reach, window 0 homed here for two contributions to its first line. -/
def contribution (n line route : Nat) : Contribution := ⟨0, line, n, 1, 5, [0], 0, route, [0]⟩

def fabric : State := State.reset.modHub fun h =>
  { h with fabCfg := 0x10, fabPort := h.fabPort.set 0 0x3003, route := h.route.set 1 0x80
           fabRed := h.fabRed.set 0 (0x10000, 0x8003000000000000 ||| 0)
           contribs := [contribution 1 0x10000010000 0, contribution 1 0x10000010000 0, contribution 1 0x20000000000 0x80,
             contribution 1 0x30000000000 0] }

theorem witness_PortAndFabric_fabric : fabric.fabricOn = true ∧ fabric.inboundRefused 81 true (64 % 2 ^ 40) 1 = none ∧
    fabric.inboundReach (64 % 2 ^ 40) 1 = true ∧ fabric.hubRoute (fabric.ownerDie (0x10000010000 % 2 ^ 40)).val = true ∧
    (fabric.hub.contribs.any fun x => x.srcs.contains 1) = false ∧ fabric.hub.contribs[0]? = some (contribution 1 0x10000010000 0) ∧
    fabric.hub.contribs[1]? = some (contribution 1 0x10000010000 0) ∧ 1 + 1 ≤ winExpect fabric.hub.fabRed[(0 : Fin 16)] ∧
    1 < winExpect fabric.hub.fabRed[(0 : Fin 16)] ∧ fabPkg 0x10000010000 = fabric.pkgId ∧ fabric.windowOf 0x10000010000 = some 0 ∧
    fabric.inboundOk 0x10000010000 true = true ∧ fabric.hub.openEntries = [] ∧
    fabric.hub.contribs[2]? = some (contribution 1 0x20000000000 0x80) ∧ fabPkg 0x20000000000 ≠ fabric.pkgId ∧
    (fabric.portOf 0x80).isSome = true ∧ fabric.hub.contribs[3]? = some (contribution 1 0x30000000000 0) ∧
    fabPkg 0x30000000000 ≠ fabric.pkgId ∧ (fabric.portOf 0).isNone = true ∧
    ([0, 2, 3].all fun i => match fabric.hub.contribs[i]? with
      | some a => !((fabric.hub.contribs.take i).any fun y => fabric.sentBefore y a) | none => false) = true ∧
    ((fabric.hub.contribs.take 1).any fun y => fabric.sentBefore y (contribution 1 0x10000010000 0)) = true ∧
    winEn ((0x10000 : W64) &&& 0x000000FFFFFF0003, (State.reset.hub.fabRed[(0 : Fin 16)]).2) = false := by decide +kernel

/-! The step, the encoder and the invariant. -/

theorem witness_EveryInstructionAnswers : State.reset.power = true ∧ ({ State.reset with power := false } : State).power = false ∧
    Instr.warmReset ≠ .coldReset := ⟨rfl, rfl, by intro h; cases h⟩

/-- StepRunsDecoded: a bundle of ADDX with its extension word, and one of ADD without. -/
def stepping (x : Slot) : State :=
  { base with mem := writeLE (writeLE (writeLE [] 0 4 (0b10110 * 2 ^ 27 + (if x.encode.2.2.isSome then 2 ^ (8 + x.op.slot.val) else 0) + 2 ^ x.op.slot.val)) 4 4
      x.encode.2.1) 8 4 (x.encode.2.2.getD 0) }

def addxSlot : Slot := ⟨guard, .s (.addx 3 3 0x12345)⟩

theorem witness_StepRunsDecoded : ([addSlot, addxSlot].all fun x =>
    let t := (stepping x).tickEnv
    let k := t.core t.cur.1 t.cur.2
    let p := k.profile t.cur.2
    let e := x.encode
    let head := 0b10110 * 2 ^ 27 + (if e.2.2.isSome then 2 ^ (8 + x.op.slot.val) else 0) + 2 ^ x.op.slot.val
    (stepping x).agenda.isEmpty && t.dueDie.isNone && t.awake && t.calm && !k.waits && (t.codeHeld t.cur.1 t.cur.2).isNone &&
      (t.lineBundle t.cur.1 t.cur.2).isNone && decide (p.gen ≠ .g1) && decide (p.gen ≠ .g2) && decide (k.pc.toNat % 4 = 0) &&
      !headBad p head && x.wf) = true := by decide +kernel

theorem witness_StepRunsDecoded_due :
    ((base.modDie 3 fun x => { x with passDue := true }).modHub fun h => { h with boot := .done }).tickEnv.dueDie = some 3 ∧ base.agenda = [] := by decide +kernel

theorem witness_StepRunsDecoded_words : let t := (stepping addxSlot).tickEnv
    t.fetchHome 0 0 0 = (.ok (0b10110 * 2 ^ 27 + 2 ^ 9 + 2), t) ∧ t.fetchHome 0 0 4 = (.ok addxSlot.encode.2.1, t) ∧
    t.fetchHome 0 0 8 = (.ok 0x12345, t) ∧ decodeFor ((t.core 0 0).profile 0) 1 addxSlot.encode.2.1 (some 0x12345) = .ok addxSlot :=
  ⟨rfl, rfl, rfl, rfl⟩

theorem witness_DecodeEncode : ([addSlot, addxSlot, ⟨⟨true, 7⟩, .v true (.vcvt 31 39 (.nf 3) .f32 1 .rs 7)⟩].all Slot.wf) = true := by decide

theorem witness_StepKeepsMemory : Memory.wf (stepping addSlot).mem = true ∧
    Memory.wf (stepping addSlot).dram = true ∧ Memory.wf (stepping addSlot).fabMem = true ∧
    (match step (stepping addSlot) with | .next _ => true | _ => false) = true := by decide +kernel

/-! Witnesses for guards, faults, waits and orders. -/

/-- `base` with p1 as given, which guards the slots of `gate`. -/
def gated (p : Nat) (f : Core → Core := some64) : State :=
  box fun k => { f k with regs := { (f k).regs with p := (f k).regs.p.set 1 (BitVec.ofNat 256 p) } }

def gate (o : Op) : Slot := ⟨⟨false, 1⟩, o⟩

/-- GuardedSlots: p1 of no lane, for slots with and without elements, and of lane 0 alone. -/
theorem witness_GuardedSlots : (gated 0).awake = true ∧ (gated 0).calm = true ∧ (gated 0).here.noneOwed = true ∧ (gated 0).here.regs.vl ≤ 256 ∧
    (∀ i, i < (gated 0).here.regs.vl → ((gated 0).preg 1).testBit i = false) ∧
    ([Op.s (.add 4 1 2), .c .halt, .m .mreset, .y false .ycancel].all fun o =>
      (gated 0).admits (gate o) && (semOp o).unit (gated 0).here == 0 && (gated 1).admits (gate o)) = true ∧
    ([VectorOp.vadd 1 2 3 .i32, .vcvt 1 2 .f32 .i8 0 .rs 0, .vst 1 1 true false 0].all fun o =>
      (gated 0).admits (gate (.v false o)) && (semOp (.v false o)).unit (gated 0).here != 0) = true ∧
    ((gated 1).preg 1).testBit 0 = true ∧ ((gated 1).preg 1).testBit 1 = false := by decide +kernel

/-- A bundle of one slot with STALL 3 that SKIPSEL 1 skips. -/
def skipped : State :=
  { (box fun k => { some64 k with regs := { k.regs with sk := k.regs.sk.set 0 false } }) with mem := writeLE [] 0 4 (0xB0000002 + 2 ^ 21 + 3 * 2 ^ 16) }

theorem witness_GuardedSlots_skipped : fetchHead 0 0 skipped = (.ok 1 3 8 (0xB0000002 + 2 ^ 21 + 3 * 2 ^ 16), skipped) ∧
    skipped.here.regs.sk[(0 : Fin 3)] = false ∧ skipped.quiet = true := ⟨rfl, rfl, by decide +kernel⟩

/-! AccessFaults. -/

/-- A thread without a table for a1, with p1 as given. -/
def unmapped (p : Nat) : State := gated p fun k =>
  { some64 k with thr := { k.thr with root := 0x1000 }, regs := { (some64 k).regs with a := (some64 k).regs.a.set 1 0x200000 } }

/-- The page of a1 at a fabric address that this package reaches, the code in another. -/
def fabricPage : State :=
  (box fun k => { some64 k with
    pc := 0x1000
    tlb := [⟨0, 1, 12, 1, true, true, true, true, false, false, true⟩, ⟨0, 0, 12, 0x10000000, true, true, true, true, false, false, true⟩] }).modHub
    fun h => { h with fabCfg := 0x10, fabPort := h.fabPort.set 0 0x3003, route := h.route.set 0 0x80 }

def fourForms : List Op := [.a (.ldgI64 4 1 true 8), .a (.stgI64 4 1 true 8), .a (.ldaqI64 4 1 .s 0), .a (.strlI64 4 1 .s 0)]

theorem witness_AccessFaults_global :
    (let refusing : State := { page with dies := page.dies.map fun x => { x with atDef := 0 } }
     let late : State := { unmapped 0 with late := true }
     let poisoned : State := { page with poison := [64] }
     let at1 (s : State) := s.locate (s.who 0 0) .read (s.areg 1) 8
     (fourForms.all fun o => [unmapped 0, refusing, late, fabricPage, poisoned].all fun s => s.ready ⟨guard, o⟩) = true ∧
     canonical ((unmapped 0).areg 1) = true ∧ ((unmapped 0).areg 1).toNat % 8 = 0 ∧ (page.areg 1).toNat % 8 = 0 ∧
     (match at1 (unmapped 0), at1 refusing, at1 late, at1 fabricPage, at1 poisoned with
      | (.error (.reason _), _), (.error (.refused _), _), (.error .late, _), (.ok (_, .fabric), _), (.ok (x, .mem), t) =>
        t.meetsPoison 0 0 x.pa
      | _, _, _, _, _ => false) = true) := by decide +kernel

/-- OrderForms: a fabric address, a page that is absent, one that the tables refuse. -/
theorem witness_OrderForms_nothing :
    (let refusing : State := { page with dies := page.dies.map fun x => { x with atDef := 0 } }
     let at1 (s : State) := s.locate (s.who 0 0) .read (s.areg 1) 1
     ([AddressOp.l1fll 1 0, .l1invl 1 0, .ldpf 1 0].all fun o => [unmapped 0, refusing, fabricPage].all fun s => s.ready ⟨guard, .a o⟩) = true ∧
     (match at1 fabricPage, at1 (unmapped 0), at1 refusing with
      | (.ok (x, _), _), (.error (.reason _), t), (.error (.refused _), u) => fabricPage.isFabric x.pa && t.calm && u.calm && t.here.noneOwed &&
          u.here.noneOwed && t.cur == (0, 0) && u.cur == (0, 0)
      | _, _, _ => false) = true) := by decide +kernel

/-- a1 and p1 of the vector accesses: lane 4 beyond the end of the scratchpad, an address off its word, one that is not canonical, one
without a page. -/
def vectorAt (a1 : W64) (p : Nat) : State := gated p fun k => { wide k with regs := { (wide k).regs with a := (wide k).regs.a.set 1 a1 } }

theorem witness_AccessFaults_vector :
    (let o := VectorOp.vld 1 1 true true 1
     let v := VectorOp.vst 1 1 false true 1
     ([vectorAt 0x7FFFC 0xFF, vectorAt 0x42 0xF].all fun s => s.ready (slotP1 o) && s.ready (slotP1 v)) = true ∧
     (vectorLanes ((vectorAt 0x7FFFC 0xFF).envFor (slotP1 o)) o).find? (fun l => decide (0x80000 ≤ 0x7FFFC + l)) = some 4 ∧
     (∀ l ∈ vectorLanes ((vectorAt 0x42 0xF).envFor (slotP1 o)) o, 0x42 + l < 0x80000) ∧ 0x42 % 4 ≠ 0 ∧
     (vectorLanes ((vectorAt 0x42 0xF0).envFor (slotP1 v)) v) = [4, 5, 6, 7] ∧ (vectorAt 0x800000000000 0xF0).ready (slotP1 v) = true ∧
     canonical (0x800000000004 : W64) = false ∧ (unmapped 0xF0).ready (slotP1 v) = true ∧
     (match (unmapped 0xF0).locate ((unmapped 0xF0).who 0 0) .write 0x200004 1 with | (.error (.reason _), _) => true | _ => false) = true) := by
  decide +kernel

/-- A base and an index vector: element 1 beyond the scratchpad, all elements off their words. -/
def indexed (a1 : W64) (ix : Nat) : State := gated 0xFF fun k => { wide k with regs := { (wide k).regs with
  a := (wide k).regs.a.set 1 a1, v := (wide k).regs.v.set 2 (BitVec.ofNat 2048 ix) } }

theorem witness_AccessFaults_gather :
    (let s := indexed 4 (2 ^ 32 * 0x80000)
     let o := VectorOp.vgath 1 1 true 2 .e32
     let ea := (s.envFor (slotP1 o)).vgatEa 1 2 4
     s.ready (slotP1 o) = true ∧ (s.envFor (slotP1 o)).lanesOn 32 = [0] ++ 1 :: [] ∧ (spadFault (ea 0) 4).isNone = true ∧
      (spadFault (ea 1) 4).isSome = true) ∧
    (let s := indexed 2 3
     let o := VectorOp.vscata 1 1 false 2 .e32
     s.ready (slotP1 o) = true ∧ (s.envFor (slotP1 o)).lanesOn 32 = [] ++ 0 :: [1] ∧
      (globalFault ((s.envFor (slotP1 o)).vgatEa 1 2 4 0) 4).isSome = true) := by decide +kernel

/-- The copy blocks at a1 = 64: a completion record off its doubleword, a ring that is not initialised, a handle of another generation; YLDV at
an address beyond the last 256 bytes and at one off its word. -/
def blockBox (b : Nat) (a1 : W64) : State := box fun k =>
  { some64 k with spad := writeLE [] 64 64 b, rings := k.rings.set 6 (ring false 0 0 0 0)
                  regs := { (some64 k).regs with a := (some64 k).regs.a.set 1 a1 } }

theorem witness_AccessFaults_copy :
    ([2 ^ 448 * (2 ^ 31 + 4), 2 ^ 384 * 0xC0 + 2 ^ 416 * 0x15, 2 ^ 384 * 0xC0 + 2 ^ 416 * 0x26].map fun b =>
      let s := blockBox b 64
      let b := s.blockAt 1
      let r := s.here.rings[Fin.ofNat 16 (blkHandle b)]
      (s.ready ⟨guard, .y false (.ypush 1 false false .c)⟩ && (s.here.eng.lockOn (rangeOf 64 64)).isNone, blkCplEn b && blkCplOff b % 8 != 0,
        (copyForm (.ypush 1 false false .c)).any fun f => f.kind.usesRing b, r.init, blkHandle b / 16 != r.gen.toNat)) =
      [(true, true, true, false, false), (true, false, true, false, true), (true, false, true, true, true)] ∧
    ([(0x7FF04 : W64), 0x102].all fun a => (blockBox 0 a).ready ⟨guard, .y false (.yldv 1 false 1)⟩) = true := by decide +kernel

/-- The row of Table 5-9, from 0, that a VTBLD of ring `h`, v2 and v3 fails first. -/
def tableRowOf (s : State) (h : Fin 16) : Option Nat :=
  let k := s.here
  let e := s.envFor ⟨guard, .v false (.vtbld h 2 3)⟩
  let ctl := k.readV 3 8
  let row := elemAt ctl 16 0
  let ng := elemAt ctl 16 1
  let first := ctl.testBit 32
  let acts := mergeLanes 8 256 0 (e.src 2 8) (laneMask 8 (e.on 8))
  let cfg := k.regs.cbCfg.toNat
  let r := k.rings[h]
  [!r.init, decide (row > 15 ∨ ng = 0 ∨ ng > 256 ∨ cbG cfg * ng > 256), first == r.openT.isSome, !first && r.openT.any fun t => t.2.1 != ng,
    decide (48 + (row + 1) * tableRowBytes cfg ng > r.slotBytes), !cbValid cfg, !first && r.openT.any fun t => t.2.2 != k.regs.cbGen.toNat,
    cbHalve cfg && !cbSymmetric cfg k.regs.cbVals, (tableRow cfg k.regs.cbVals acts ng).any fun x => decide (x.2 < -32768 ∨ 32767 < x.2)].findIdx? id

/-- `builder` with row, groups and flags in v3, a configuration, codebook values of bytes `val`, and an open tile. -/
def building (row ng fl : Nat) (cfg : BitVec 16) (val : BitVec 32) (t : Option (BitVec 32 × Nat × Nat)) : State :=
  { builder.modCore 0 0 fun k => { k with
      rings := k.rings.set 1 { k.rings[(1 : Fin 16)] with openT := t, a := 1 }
      regs := { k.regs with
        v := (k.regs.v.set 3 (BitVec.ofNat 2048 (row + 2 ^ 16 * ng + 2 ^ 32 * fl))).set 2 (BitVec.ofNat 2048 (packElems 8 (List.replicate 8 0x7F)))
        cbCfg := cfg, cbVal := #v[val, val, val, val] } } with cur := (0, 0) }

theorem witness_AccessFaults_table :
    ([tableRowOf builder 2] ++ [building 16 1 1 0 0 none, building 0 257 1 0 0 none, building 0 1 0 0 0 none, building 0 2 0 0 0 (some (0, 1, 0)),
      building 15 1 1 0x0AC0 0 none, building 0 1 1 3 0 none, building 0 1 0 0x0AC0 0 (some (0, 1, 5)), building 0 1 1 0x0AC0 0x01020304 none,
      building 0 1 1 0x0A40 0x7F7F7F7F none].map fun s => tableRowOf s 1) = [0, 1, 1, 2, 3, 4, 5, 6, 7, 8].map some ∧
    builder.ready ⟨guard, .v false (.vtbld 2 2 3)⟩ = true ∧ (building 0 1 1 0x0A40 0x7F7F7F7F none).ready ⟨guard, .v false (.vtbld 1 2 3)⟩ = true := by
  decide +kernel

/-- AfterCauses: the next bundle's page is walked while the answer is late. -/
def edge : State :=
  { (box fun k => { some64 k with pc := 0xFF8, thr := { k.thr with root := 0x1000 } }) with late := true }

theorem witness_AfterCauses_due : edge.ready ⟨guard, .c (.trap 5)⟩ = true ∧
    ((edge.issuedWrites ⟨guard, .c (.trap 5)⟩ []).settleNext 0 0).2 = none := by decide +kernel

/-- RingOrder: every ring of a core in order, and the states of a ring that an assignment, a finished entry and a YPUSH change. -/
theorem witness_RingOrder : (∀ h : Fin 16, ((ringBox (ring true 0 0 2 2)).here.rings[h]).ordered) ∧ (ring false 0 0 0 2).ordered ∧
    ({ ring false 0 0 0 2 with marks := [0, 1] } : Ring).ordered := by
  refine ⟨?_, ⟨by decide, by decide, by decide, by decide, by simp [ring], by decide, by simp [ring]⟩,
    ⟨by decide, by decide, by decide, by decide, by simp [ring]; decide, by decide, by simp [ring]⟩⟩
  have e : ∀ h : Fin 16, (ringBox (ring true 0 0 2 2)).here.rings[h] = .empty ∨ (ringBox (ring true 0 0 2 2)).here.rings[h] = ring true 0 0 2 2 := by
    decide +kernel
  intro h
  rcases e h with e | e <;> rw [e]
  · exact ⟨by decide, by decide, by decide, by decide, by simp [Ring.empty], by decide, by simp [Ring.empty]⟩
  · exact ⟨by decide, by decide, by decide, by decide, by simp [ring], by decide, by simp [ring]⟩

theorem witness_RingOrder_forms :
    (let s := ringBox (ring true 0 0 2 2)
     s.quiet = true ∧ s.ready ⟨guard, .c (.hadv 1 0)⟩ = true ∧ s.ready ⟨guard, .c (.hcommit 1 0)⟩ = true ∧
      (ringEffect s (.hadv 1 0)).isSome = true ∧ (s.here.rings[(1 : Fin 16)]).init = true ∧ (s.here.rings[(1 : Fin 16)]).win = true ∧
      (s.sreg 0).toNat ≤ ((s.here.rings[(1 : Fin 16)]).a - (s.here.rings[(1 : Fin 16)]).c).toNat) ∧
    (let r := ring false 0 0 0 2
     (r.a - r.h).toNat + 1 < 2 ^ 32 ∧ (r.t - r.h).toNat ≤ ((1 : BitVec 32) - r.h).toNat ∧
      ((1 : BitVec 32) - r.h).toNat < (r.a - r.h).toNat ∧ ((1 : BitVec 32) - r.h).toNat < r.nslot ∧ (1 : BitVec 32) ∉ r.marks) ∧
    (({ ring false 0 0 0 2 with marks := [0, 1] } : Ring).pushMarked 2).isSome = true := by decide +kernel

/-- SRET with two traps set aside; TBWAIT and BARWAIT on a word of one arrival still to come. -/
theorem witness_SupervisorForms_saved :
    let s := tap.modCore 0 64 fun k => { k with tap := { k.tap with saved := [⟨[sent (.s 4) 3 1], [], true, 0⟩, ⟨[], [], false, 0⟩] } }
    s.ready ⟨guard, .c .sret⟩ = true ∧ s.quiet = true ∧ s.here.tap.saved.length = 2 := by decide +kernel

theorem witness_SupervisorForms_waits : (let s : State := { tap with mem := writeLE [] 64 8 0x0001000000000000 }
    let r := s.atHome 0 64 64 8
    s.ready ⟨guard, .c (.tbwait 0 2)⟩ = true ∧ s.here.aheadOf (rangeOf 64 8) = false ∧ r.1.testBit 0 = (s.sreg 0).getLsbD 0 ∧ bits r.1 63 48 ≠ 0) := by
  decide +kernel

theorem witness_BarrierForms_waits : (let s : State := { member with mem := writeLE [] 0x100 8 0x0001000000000000 }
    let r := s.atHome 0 0 0x100 8
    s.ready ⟨guard, .c (.barwait .c 0)⟩ = true ∧ r.1.testBit 0 = r.1.testBit 1 ∧ bits r.1 63 48 ≠ 0) := by decide +kernel

theorem witness_BarrierForms_refused : ([[⟨0, 0, 0x100, false⟩], List.replicate 8 ⟨0, 9, 0x100, false⟩].all fun (l : List Member) =>
    let s := member.setSets 0 0 31 l
    let l := s.sets 0 (clusterOf 0) 31
    s.ready ⟨guard, .c (.gjoin 4)⟩ && (decide (8 ≤ l.length) || l.any fun m => m.die == 0 && m.idx == s.here.thr.idx)) = true := by decide +kernel

theorem witness_LaunchForms_closed :
    let s : State := { launcher with mem := writeLE [] ((launcher.die 0).recAddr 0 + 0x48) 2 5 }
    s.recOpen 0 0 (s.who 0 0).asn = false ∧ s.ready ⟨guard, .c (.lpatch 0 1 0)⟩ = true ∧ s.recOperand (s.sreg 0) = some (0, 0) := by decide +kernel

/-- VectorElementValues: each of its operations, with an element that takes part. -/
theorem witness_VectorElementValues : ([VectorOp.vadd 1 2 3 .i32, .vadd 1 39 32 .u32, .vsub 1 2 3 .i16, .vmul 1 2 3 .u16, .vmulh 1 2 3 .i32, .vadds 1 2 3 .i8,
    .vsubs 1 2 3 .u8, .vmin 1 2 3 .i16, .vmax 1 2 3 .u32, .vshl 1 2 3 .i8, .vshr 1 2 3 .u16, .vsra 1 2 3 .u32, .vsel 1 2 3 .i8 0, .vcmpeq 0 2 3 .i8,
    .vcmpne 1 2 3 .u8, .vcmplt 1 2 3 .i16, .vcmple 1 2 3 .u16, .vcmpgt 1 2 3 .i32, .vcmpge 1 2 3 .u32, .vadd 1 2 3 .f32].all fun o =>
    base.ready ⟨guard, .v false o⟩ && base.ready ⟨guard, .v true o⟩ && (base.envFor ⟨guard, .v false o⟩).on 32 63 &&
      (base.envFor ⟨guard, .v true o⟩).on 8 255) = true := by decide +kernel

/-- CopyEngine: the chunks of a YFILL of three rows of 2,500 bytes, 3,000 apart, and upwards or downwards. -/
def fillBlock (stride : Nat) : Nat := 0xFF + 2 ^ 64 * 0x4001 + 2 ^ 224 * stride + 2 ^ 256 * 3 + 2 ^ 272 * 2500 + 2 ^ 384 * 0x40

theorem witness_CopyEngine_fill : ([(3000, 3, (0x4001 + 3000 + 2048 : Int), 452), (2 ^ 32 - 7, 4, 0x4001 - 14, 2048)].all fun (stride, chunk, a, n) =>
    let b := fillBlock stride
    let y := { copyCmd (.yfill 1 false false .c) b .running none with chunk := chunk }
    let s := copyBox y
    let per := ceilDiv (blkCols b) 2048
    let j0 := chunk % per * 2048
    (match planOf ⟨.fill, 1, false, false, .c⟩ b with | some p => decide (chunk < p.n) | none => false) &&
      decide (s.here.eng.yq[copyIdx false] = [y]) && blkDDesc b == 0 && blkFlags b == 0x40 && decide (s.here.eng.spill[copyIdx false] = []) &&
      !s.here.slotBusy y && swf s.here.spad && Nat.min (blkCols b) (j0 + 2048) - j0 == n &&
      decide (blkDst b + (chunk / per : Nat) * blkDStride b + (j0 : Nat) = a) && decide (a.toNat + n ≤ 0x80000) && decide (s.here.eng.locks = [])) = true := by
  decide +kernel

/-- CopyEngine: the chunks of a YCOPY of three rows of 2,500 bytes whose third row and last columns are absent, rows upwards in the destination and
downwards in the source. -/
def copyBlock : Nat :=
  0x100 + 2 ^ 64 * 0x4001 + 2 ^ 192 * (2 ^ 32 - 3) + 2 ^ 224 * 3000 + 2 ^ 256 * 3 + 2 ^ 272 * 2500 + 2 ^ 288 * 2 + 2 ^ 304 * 2100 + 2 ^ 384 * 0x50

theorem witness_CopyEngine_copy :
    ([(0, 0x4001, 0x100), (3, 0x4001 + 3000 + 2048, 0x100 - 3 + 2048), (5, 0x4001 + 6000 + 2048, 0x100 - 6 + 2048)].all fun (chunk, a, z) =>
    let b := copyBlock
    let y := { copyCmd ycopy b .running none with chunk := chunk }
    let s := copyBox y
    let per := ceilDiv (blkCols b) 2048
    let j0 := chunk % per * 2048
    let n := Nat.min (blkCols b) (j0 + 2048) - j0
    (match planOf ⟨.copy, 1, false, false, .c⟩ b with | some p => decide (chunk < p.n) | none => false) && blkSDesc b == 0 && blkDDesc b == 0 &&
      blkFlags b == 0x50 && !s.here.slotBusy y && decide ((a : Int) = blkDst b + (chunk / per : Nat) * blkDStride b + (j0 : Nat)) &&
      decide ((z : Int) = blkSrc b + (chunk / per : Nat) * blkSStride b + (j0 : Nat)) && decide (a + n ≤ 0x80000) && decide (z + n ≤ a)) = true := by
  decide +kernel

/-- CopyEngine: a YREM of either MODE to the word at 0x204; the same word full. -/
theorem witness_CopyEngine_rem : ([0x40, 0x1040].all fun flags =>
    let b := 0x11223344 + 2 ^ 64 * 0x204 + 2 ^ 384 * flags
    let s := copyBox (copyCmd (.yrem 1 false false .c) b .running none)
    (planOf ⟨.rem, 1, false, false, .c⟩ b).isSome && blkFlags b == flags && decide (blkDst b + 4 ≤ 0x80000) && !s.here.full.contains (blkDst b / 4) &&
      s.here.eng.locks.isEmpty && swf s.here.spad && ({ s.here with full := [0x81] } : Core).full.contains (blkDst b / 4)) = true := by decide +kernel

theorem witness_CoreHousekeeping_record : Memory.wf posting.mem = true ∧ isTaproot 0 = false ∧ 0x400 % 32 = 0 ∧
    ∀ i, i < 32 → posting.hasMem (0x400 + i) = true ∧ posting.isFabric (0x400 + i) = false := by decide +kernel

theorem witness_CoreHousekeeping_landing :
    (let s := box fun k => { some64 k with run := .halted, pend := [sent (.s 4) 3 1], cyc := 2 }
     let t := s.setCore 0 0 s.here.landAll
     t.haltedDone 0 0 = true ∧ (t.core 0 0).memq = [] ∧ (t.core 0 0).eng.btoks = [] ∧ (t.core 0 0).pend = []) := by decide +kernel

/-- DieServices: a pass due with the scheduler on, once the boot is done; an absent die. -/
theorem witness_DieServices_pass :
    (let s := (armed.modDie 0 fun x => { x with passDue := true }).modHub fun h => { h with boot := .done }
     let u := s.setDie 0 { s.die 0 with passDue := false }
     s.hub.boot = .done ∧ (s.die 0).passDue = true ∧ (s.die 0).schedOn = true ∧ (u.candidates 0).map (·.idx) = [1] ∧
      ((s.die 0).recd 1).st = .armed ∧ u.admitted 0 ((s.die 0).recd 1) = true ∧
      (u.chooseCore 0 ((s.die 0).recd 1) (((List.range 64).filter fun c => u.suits 0 ((s.die 0).recd 1) c && !([] : List Nat).contains c).filter
        (u.freeCore 0))) = some 0) ∧
    ((((recState .trapped).modDie 0 fun x => { x with events := [⟨4, 0, 1, 0, 0⟩] }).die 0).events.any fun e => e.kind == 4 && e.idx == 1) = true := by
  decide +kernel

/-- PackageSteps: a start on a die that is held, once the boot is done; links between two dies of the package. -/
theorem witness_PackageSteps_done : let s := State.reset.modHub fun h => { h with boot := .done }
    s.hub.boot = .done ∧ s.hasDie (3 : Fin 4).val = true ∧ s.hasDie (0 : Fin 4).val = true ∧ (3 : Fin 4) ≠ 0 ∧ (s.core 3 65).run = .idle := by decide +kernel

/-- PortAndFabric: a WRITE of s4, at 0x220. -/
theorem witness_PortAndFabric_write :
    let s := frozen.modCore 0 0 fun k => { k with dbg := { k.dbg with cmd := BitVec.ofNat 64 (0x220 * 2 ^ 16 + 8) } }
    s.portOpen = true ∧ s.hasDie 0 = true ∧ s.here.dbg.frozen = true ∧
    bits s.here.dbg.cmd.toNat 63 16 / 8 * 8 = 0x200 + 8 * (4 : Fin 32).val ∧ swf (s.here.dbgErr false).portImage = true := by decide +kernel

/-- A round of window 0 that one merged contribution of three or of four closes; its notification word is at address 0. -/
def closing (count : Nat) : State :=
  { fabric.modHub (fun h => { h with contribs := [contribution count 0x10000010000 0] }) with
    mem := writeLE (writeLE [] 0x10000 8 0x0000000700000009) 0 8 0x0002000100000000 }

theorem witness_PortAndFabric_close : ([3, 4].all fun n =>
    let s := closing n
    s.fabricOn && s.hub.contribs[0]? == some (contribution n 0x10000010000 0) && s.inboundOk 0x10000010000 true &&
      s.windowOf 0x10000010000 == some 0 && s.hub.openEntries.isEmpty && decide (winExpect s.hub.fabRed[(0 : Fin 16)] ≤ n) &&
      winNotify s.hub.fabRed[(0 : Fin 16)] == 0 && Memory.wf s.mem && s.cacheable 0 && !s.poisoned 0) = true ∧
    (∀ m, m < 64 → (closing 3).hasMem (0x10000 + m) = true) ∧
    ∀ m, m < 8 → (closing 3).hasMem (0 + m) = true ∧ (closing 3).isFabric (0 + m) = false := by decide +kernel

theorem witness_PortAndFabric_entered : fabric.isFabric 0x10000010047 = true ∧ fabPkg 0x10000010047 = fabric.pkgId ∧
    (fabric.hub.contribs.any fun y => y.pkgs.contains 0 && fabPkg y.line == fabric.pkgId) = true ∧
    (fabric.hub.contribs.any fun y => y.pkgs.contains 9 && fabPkg y.line == fabric.pkgId) = false ∧
    fabric.inboundOk (lineOf 0x10000010047) true = true ∧ fabric.windowOf (lineOf 0x10000010047) = some 0 := by decide +kernel

/-- CodeOldOrNew: what a fetch may meet of a bundle that is held. -/
theorem witness_CodeOldOrNew_held : cached.heldBundle 0 0 = some [0xB0000002, 5] := by decide +kernel

theorem witness_StepKeepsCores : (stepping addSlot).coresInBounds ∧ (match step (stepping addSlot) with | .next _ => true | _ => false) = true := by
  refine ⟨?_, by decide +kernel⟩
  have h : ∀ (d : Fin 4) (c : Fin 68), ((stepping addSlot).core d c).inBounds := by unfold Core.inBounds; decide +kernel
  have e : ∀ d : Fin 4, ((stepping addSlot).die d).recs = [] := by decide +kernel
  intro d
  exact ⟨h d, by rw [e d]; intro r hr; cases hr⟩

/-! Words written out from the spec's encodings, several for each family. -/

/-- brp b2, !p3 (04_control_scalar.md, example under R98). -/
theorem test_decode_brp : decodeSlot 0 0x040AC000 none = .ok ⟨guard, .c (.brp 2 true 3)⟩ := rfl
/-- brlc b1, lc1. -/
theorem test_decode_brlc : decodeSlot 0 0x06041000 none = .ok ⟨guard, .c (.brlc 1 1)⟩ := rfl
/-- lcset lc1, 3 (Table 4-2). -/
theorem test_decode_lcset : decodeSlot 0 0x18010003 none = .ok ⟨guard, .c (.lcset 1 3)⟩ := rfl
theorem test_decode_halt : decodeSlot 0 0x0C000000 none = .ok ⟨guard, .c .halt⟩ := rfl
/-- shapex sh1, s4, 0x46428120 (example under R110). -/
theorem test_decode_shapex : decodeSlot 0 0x26012000 (some 0x46428120) = .ok ⟨guard, .c (.shapex 1 4 0x46428120)⟩ := rfl
/-- hinit h3, s8 and hcommit h3, s9 (08_core_memory.md, example under R224). -/
theorem test_decode_hinit : decodeSlot 0 0x30034000 none = .ok ⟨guard, .c (.hinit 3 8)⟩ := rfl
theorem test_decode_hcommit : decodeSlot 0 0x38034800 none = .ok ⟨guard, .c (.hcommit 3 9)⟩ := rfl
/-- barinit 7, s5; bararv.d 7; barwait.d 7; barrem.d s9 (10_cluster.md, example under R291). -/
theorem test_decode_barinit : decodeSlot 0 0x40002807 none = .ok ⟨guard, .c (.barinit 5 7)⟩ := rfl
theorem test_decode_bararv : decodeSlot 0 0x42020007 none = .ok ⟨guard, .c (.bararv .d 7)⟩ := rfl
theorem test_decode_barwait : decodeSlot 0 0x44020007 none = .ok ⟨guard, .c (.barwait .d 7)⟩ := rfl
theorem test_decode_barrem : decodeSlot 0 0x46004802 none = .ok ⟨guard, .c (.barrem 9 .d)⟩ := rfl
/-- lpatch s1, 3, s2 and lwait a4 (13_scheduling.md R348, R350). -/
theorem test_decode_lpatch : decodeSlot 0 (0x4C000000 + 2 ^ 11 + 2 ^ 6 * 2 + 3) none = .ok ⟨guard, .c (.lpatch 1 2 3)⟩ := rfl
theorem test_decode_lwait : decodeSlot 0 (0x50000000 + 2 ^ 11 * 4) none = .ok ⟨guard, .c (.lwait 4)⟩ := rfl
/-- csrwr 0x10, s20 (16_prog_lut.md Table 16-7). -/
theorem test_decode_csrwr : decodeSlot 0 0x6800A010 none = .ok ⟨guard, .c (.csrwr 20 0x10)⟩ := rfl
/-- sret, opcode 0x38, of a Taproot core; its opcode is unassigned on an engine core (14_package.md R371). -/
theorem test_decode_sret : decodeFor (tap.here.profile 64) 0 0x70000000 none = .ok ⟨guard, .c .sret⟩ ∧
    decodeFor (base.here.profile 0) 0 0x70000000 none = .error .unassigned := ⟨rfl, rfl⟩
/-- addi s2, s2, 5 and li s2, 0 (Table 4-2). -/
theorem test_decode_addi : decodeSlot 1 0x3A021005 none = .ok ⟨guard, .s (.addi 2 2 5)⟩ := rfl
theorem test_decode_li : decodeSlot 1 0x56020000 (some 0) = .ok ⟨guard, .s (.li 2 0)⟩ := rfl
/-- ldsp.ui32 s7, [a9+68] (17_prog_data.md). -/
theorem test_decode_ldsp : decodeSlot 2 0x2C079044 none = .ok ⟨guard, .a (.ldspUi32 7 9 false 68)⟩ := rfl
/-- vcmplt.i16 p2, v4, v5 (05_vector.md, example under R141). -/
theorem test_decode_vcmplt : decodeSlot 3 0x64081051 none = .ok ⟨guard, .v false (.vcmplt 2 4 5 .i16)⟩ := rfl
/-- vcvt.i8.bf16 v3, v2, sl with its extension word 0 (05_vector.md, example under R152). -/
theorem test_decode_vcvt : decodeSlot 4 0x4E030860 (some 0) = .ok ⟨guard, .v true (.vcvt 3 2 .bf16 .i8 0 .rne 0)⟩ := rfl
theorem test_decode_vmaxexp : decodeSlot 3 0x3A000806 none = .ok ⟨guard, .v false (.vmaxexp 2 .bf16)⟩ := rfl
/-- vld.sp v1, [a9+256] (17_prog_data.md). -/
theorem test_decode_vld : decodeSlot 3 0x9A019840 none = .ok ⟨guard, .v false (.vld 1 9 true false 64)⟩ := rfl
/-- mlut.clr acc[16, 2], h2, h3, sh1 and mlutg acc[0, 0], h4, h5, sh2, h6, h6 (07_matrix_ops.md, examples under R200, R201). -/
theorem test_decode_mlut : decodeSlot 5 0x04046813 none = .ok ⟨guard, .m (.mlut 2 3 16 2 1 true)⟩ := rfl
theorem test_decode_mlutg : decodeSlot 5 0x0608A004 (some 0x66000000) = .ok ⟨guard, .m (.mlutg 4 5 0 0 2 false 6 6)⟩ := rfl
/-- mcbget s4, cb.gen and macrd v8, acc[16, 2]. -/
theorem test_decode_mcbget : decodeSlot 5 0x1204A000 none = .ok ⟨guard, .m (.mcbget 4 5)⟩ := rfl
theorem test_decode_macrd : decodeSlot 5 0x14084080 none = .ok ⟨guard, .m (.macrd 8 16 2)⟩ := rfl
/-- ypush [a8] (16_prog_lut.md Table 16-7). -/
theorem test_decode_ypush : decodeSlot 6 0x04100000 none = .ok ⟨guard, .y false (.ypush 8 false false .c)⟩ := rfl
/-- An opcode 0x00 with another bit set, a narrow-format code out of the type set of VADD, an unassigned scope. -/
theorem test_decode_refused : decodeSlot 2 0x00000800 none = .error .reservedBits ∧ decodeSlot 0 0x42050007 none = .error .badField := ⟨rfl, rfl⟩

/-! Values from the spec's worked examples, one step each. -/

/-- The core after one instruction. -/
def after (i : Instr) (s : State) : Core :=
  match exec i s with
  | .next t => t.here
  | .fault _ => Core.start
  | .refused _ => Core.start

/-- shapex sh1, s4, 0x46428120 on a full core grants 0x46020120 to both, and 0x64 is VL = 100 (04_control_scalar.md, example under R110). -/
theorem test_shapex_grant : (let k := after (.shapex guard 1 4 0x46428120) base
    (k.regs.sh[(1 : Fin 4)] = 0x46020120 ∧ k.regs.s[(4 : Fin 32)] = 0x46020120)) ∧
    (let k := after (.shapex guard 1 4 0x64) base
     k.regs.vl = 100 ∧ k.regs.s[(4 : Fin 32)] = 0x64) := by decide +kernel

/-- Two's complement wrap of ADD and the sign of a multiply of −1 by −1 (04_control_scalar.md Table 4-7). -/
theorem test_add_wraps : (after (.add guard 4 3 1) base).regs.s[(4 : Fin 32)] = 5 := by decide +kernel
theorem test_min_is_signed : (after (.min guard 4 1 3) base).regs.s[(4 : Fin 32)] = 0xFFFFFFFFFFFFFFFF := by decide +kernel
theorem test_minu_is_unsigned : (after (.minu guard 4 1 3) base).regs.s[(4 : Fin 32)] = 6 := by decide +kernel
theorem test_clz_of_zero : (after (.clz guard 4 0) base).regs.s[(4 : Fin 32)] = 64 := by decide +kernel

/-- A branch at the last count is not taken and leaves 0; at 0 the counter stays 0 (04_control_scalar.md Table 4-3). -/
theorem test_brlc_last : (let k := after (.brlc guard 1 2) base; k.pc = 8 ∧ k.regs.lc[(2 : Fin 4)] = 0) ∧
    (let k := after (.brlc guard 1 0) base; k.pc = 8 ∧ k.regs.lc[(0 : Fin 4)] = 0) ∧
    (let k := after (.brlc guard 1 1) base; k.pc = 0x100 ∧ k.regs.lc[(1 : Fin 4)] = 1) := by decide +kernel

/-- hinit of 0x0000002007090000: a window ring of eight 1,024-byte slots from 0x10000 (08_core_memory.md, example under R224). -/
theorem test_hinit_descriptor : (let k := after (.hinit guard 3 4) (box fun k => { k with regs := { k.regs with s := k.regs.s.set 4 0x0000002007090000 } })
    let g := k.rings[(3 : Fin 16)]
    g.init = true ∧ g.win = true ∧ g.nslot = 8 ∧ g.slotBytes = 1024 ∧ g.base = 0x10000) := by decide +kernel

/-- The life of a barrier word of three arrivals (10_cluster.md, example under R291). -/
theorem test_barrier_word : barInit 3 = 0x0003000000000000 ∧ barOwnArrive 0x0003000000000000 = 0x0003000100000000 ∧
    barArrive 0x0003000100000000 = 0x0003000200000000 ∧ barArrive 0x0003000200000000 = 0x0003000000000001 ∧
    barConsume 0x0003000000000001 = 0x0003000000000003 := by decide +kernel

/-- The rescale of two blocks (03_numbers.md Table 3-7): s = 0x391C0000, then 0x4314C5FA and 0x4314C5E6. -/
theorem test_rescale : (let s := (Fmt.e5m3.decode 0x3C).mul (Fmt.e5m3.decode 0x4D)
    ((rescale 0 1000001 s).1 = 0x4314C5FA ∧ (rescale 0x4314C5FA (-2) s).1 = 0x4314C5E6)) := by decide +kernel

/-- The E4M3 sums of Table 3-5, with their events. -/
theorem test_packed_add : (Option.map (fun f : Fmt => [((f.decode 0x7E).add (f.decode 0x7E)), ((f.decode 0x38).add (f.decode 0x30))].map fun x =>
    f.round .rne x) (Fmt.ofDesc 0x12307)) = some [(0x7E, some .ovf), (0x3C, none)] := by decide +kernel

/-- The scale latch and the codes of three activations (03_numbers.md, example under R84). -/
theorem test_scale_latch : (maxexpCode .bf16 [0x4040, 0xBF80, 0x3F00]).1 = 0x4D := by decide +kernel

/-- vseedx of seed 1, K0 0, stride 1: the first 24 signs (05_vector.md, example under R159). -/
theorem test_seed_signs : (seedValues 24 0 1 1) =
    [1, -1, -1, -1, -1, -1, -1, -1, -1, -1, -1, -1, -1, -1, -1, -1, -1, 1, -1, -1, -1, -1, 1, 1] := by decide +kernel

/-- The channel of PA 0x004012345A40 and its die under LOCAL (12_die.md, example under R323). -/
theorem test_channel : State.reset.channel 0x004012345A40 = 0xB ∧ State.reset.ownerDie 0x004012345A40 = (1 : Fin 4) := by decide +kernel

end Sys2Proof.Tests
end

section
/-! PROOF. O40: the matrix instructions push their command, or act, while the queue has room (06_lut_engine.md R195; 07_matrix_ops.md R192, R194,
R205 to R209, R213). The body of each instruction is said once; `exec_ready` then carries it through the issue. -/

namespace Sys2Proof.Machine.MatrixIssue

open Sys2Proof

@[simp] theorem envFor_k (s : State) (x : Slot) : (s.envFor x).k = s.here := rfl
@[simp] theorem blank_rings (s : State) : s.blank.rings = s.here.rings := rfl
@[simp] theorem blank_eng (s : State) : s.blank.eng = s.here.eng := rfl

/-- With room in the queue the pushed command is the one read at issue, and nothing waits (07_matrix_ops.md R192, R194). -/
theorem pushMat_of_room {s : State} (hq : s.here.eng.mq.length < 16) (x : Slot) (o : MatrixOp) (grant : Nat) (rings : List (Fin 16)) (v : Nat) :
    (s.envFor x).pushMat s.blank o grant rings v = .ok (s.matPushed (s.matCmd x o grant rings v)) := by
  unfold Env.pushMat
  rw [blank_eng, if_neg (Nat.not_le_of_lt hq)]
  rfl

/-- A ready matrix slot whose body comes to a push issues with its command in the queue, while there is room. -/
theorem exec_of_pushMat {s : State} {g : Guard} {o : MatrixOp} {grant : Nat} {rings : List (Fin 16)} {v : Nat}
    (hb : (semMatrix o).body (s.envFor ⟨g, .m o⟩) s.blank = (s.envFor ⟨g, .m o⟩).pushMat s.blank o grant rings v)
    (hr : s.ready ⟨g, .m o⟩ = true) (hq : s.here.eng.mq.length < 16) :
    exec (Slot.instr ⟨g, .m o⟩) s = .next (s.issued ⟨g, .m o⟩ (s.matPushed (s.matCmd ⟨g, .m o⟩ o grant rings v))) :=
  exec_ready hr (hb.trans (pushMat_of_room hq _ o grant rings v)) rfl rfl rfl (Nat.zero_le 8)

/-- The operations with a lookup form are those that issue as that form (Table 7-3). -/
theorem semMatrix_of_lutForm {o : MatrixOp} {f : LutForm} (h : lutForm o = some f) : semMatrix o = opLookup o f := by
  cases o <;> cases h <;> rfl

/-- A lookup that passes Table 7-2 in a valid codebook context comes to a push (07_matrix_ops.md R195). -/
theorem opLookup_body_of_lookupOk {s : State} {f : LutForm} (h : s.lookupOk f = true) (x : Slot) (o : MatrixOp) :
    (opLookup o f).body (s.envFor x) s.blank =
      (s.envFor x).pushMat s.blank o (s.here.regs.sh[f.sh]).toNat f.rings 0 := by
  simp only [State.lookupOk, Bool.and_eq_true, Bool.not_eq_true', List.all_eq_true, bne_iff_ne] at h
  obtain ⟨⟨⟨⟨hgrid, hinit⟩, hapart⟩, hlists⟩, hvalid⟩ := h
  have hrings : (f.rings.any fun r => !(s.blank.rings[r]).init) = false :=
    List.any_eq_false.mpr fun r hr => by simpa using hinit r hr
  have hdistinct : (f.ht == f.hw || (match f.lists with
      | some (p, q) => p == f.ht || p == f.hw || q == f.ht || q == f.hw
      | none => false)) = false := by
    cases hl : f.lists with
    | none => simpa using hapart
    | some l => simpa [hl, hapart, and_assoc] using hlists
  have hcodebook : (!cbValid s.here.regs.cbCfg.toNat) = false := by rw [hvalid]; rfl
  exact (if_neg (ne_true_of_eq_false hgrid)).trans <| (if_neg (ne_true_of_eq_false hrings)).trans <|
    (if_neg (ne_true_of_eq_false hdistinct)).trans <| if_neg (ne_true_of_eq_false hcodebook)

/-- MACLR of a region inside the grant's grid comes to a push (07_matrix_ops.md R208). -/
theorem opMaclr_body_of_grid {s : State} {row : Fin 64} {col : Fin 16} {sh : Fin 4}
    (h : gridBad (s.here.regs.sh[sh]).toNat row.val col.val = false) (x : Slot) :
    (opMaclr row col sh).body (s.envFor x) s.blank =
      (s.envFor x).pushMat s.blank (.maclr row col sh) (s.here.regs.sh[sh]).toNat [] 0 :=
  if_neg (ne_true_of_eq_false h)

/-- MMASK of an initialised ring comes to a push (07_matrix_ops.md R209). -/
theorem opMmask_body_of_init {s : State} {h : Fin 16} (hi : (s.here.rings[h]).init = true) (x : Slot) :
    (opMmask h).body (s.envFor x) s.blank = (s.envFor x).pushMat s.blank (.mmask h) 0 [h] 0 :=
  if_neg (by simpa using hi)

/-- MACRD of an empty queue does not wait: the accumulator row is on its way (07_matrix_ops.md R206). -/
theorem opMacrd_body_of_empty {s : State} (h : s.here.eng.mq = []) (g : Guard) (vd : Fin 32) (row : Fin 64) (col : Fin 16) :
    (opMacrd vd row col).body (s.envFor ⟨g, .m (.macrd vd row col)⟩) s.blank =
      .ok { s.blank with pends := [{ s.write 5 3 (.v vd) (accRow s.here.eng.acc row col) (some 4) with en := 2 ^ 256 - 1 }] } := by
  unfold opMacrd
  simp only [envFor_k, h, List.isEmpty_nil, if_true]
  rfl

/-- MRESET with nothing started does not wait: the queue is emptied and the mask disarmed (07_matrix_ops.md R213). -/
theorem opMreset_body_of_none_started {s : State} (h : (s.here.eng.mq.any fun m => m.st.isStarted) = false) (x : Slot) :
    opMreset.body (s.envFor x) s.blank = .ok { s.blank with eng := { s.here.eng with mq := [], mask := 0 } } := by
  unfold opMreset
  simp only [envFor_k, h, Bool.false_eq_true, if_false]
  rfl

/-- Settles O40: every pushing form by `exec_of_pushMat` from what its body comes to, MACRD and MRESET by their bodies. -/
theorem matrixForms : Obligations.MatrixForms := by
  intro s g o f row col sh h vd
  refine ⟨?lookup, ?maclr, ?mmask, ?macwr, ?mbias, ?macrd, ?mreset⟩
  case lookup =>
    intro hf hok
    refine exec_of_pushMat ?_
    rw [semMatrix_of_lutForm hf]
    exact opLookup_body_of_lookupOk hok _ o
  case maclr => exact fun hgrid => exec_of_pushMat (opMaclr_body_of_grid hgrid _)
  case mmask => exact fun hinit => exec_of_pushMat (opMmask_body_of_init hinit _)
  case macwr => exact exec_of_pushMat rfl
  case mbias => exact exec_of_pushMat rfl
  case macrd =>
    intro hr hempty
    exact exec_ready hr (opMacrd_body_of_empty hempty g vd row col) rfl rfl rfl (show 1 + 0 ≤ 8 by omega)
  case mreset =>
    intro hr hidle
    exact exec_ready hr (opMreset_body_of_none_started hidle _) rfl rfl rfl (Nat.zero_le 8)

end Sys2Proof.Machine.MatrixIssue
end
